-- ==== Sys2Proof/Word.lean ====
section
/-! DEFINITION. The words of the SPG block: bytes, 16-bit fields, 32-bit registers, 64-bit command and response words
(spec/00_scope.md R8, R11). -/

namespace Sys2Proof

/-- A byte of a frame (R11). -/
abbrev Byte := BitVec 8

/-- A `u16` field: a speed in rpm, a step count, an index, a period (R8). -/
abbrev U16 := BitVec 16

/-- A 32-bit word: an `i32` position as its two's-complement pattern, or a register value (R8, R12). -/
abbrev Word := BitVec 32

/-- A command or response word (R81, R87). -/
abbrev Word64 := BitVec 64

/-- A frame, first byte sent first (R11, R89). -/
abbrev Frame := List Byte

end Sys2Proof
end

