-- ==== Sys2Proof/Syntax.lean ====
section
/-! DEFINITION. The instructions of the block: the thirteen commands of the command port (spec/30_encoding.md R83) and the
three UART frames (R89), one constructor per row of spec/opcode_table.json. -/

namespace Sys2Proof

/-- An instruction. Operands are as R82 assembles them; a frame carries every field its row of the table names (log 7, 8). -/
inductive Instr where
  /-- `NOP` (R190). -/
  | nop
  /-- `GOTO target, rpm` (R170). -/
  | goto (target : Word) (rpm : U16)
  /-- `STOP` (R171). -/
  | stop
  /-- `READY` (R172). -/
  | ready
  /-- `SETPOS p` (R173). -/
  | setpos (p : Word)
  /-- `SETINV b` (R174). -/
  | setinv (b : Bool)
  /-- `GETPOS` (R191). -/
  | getpos
  /-- `GETTGT` (R192). -/
  | gettgt
  /-- `GETSTAT` (R193). -/
  | getstat
  /-- `GETPROF` (R194). -/
  | getprof
  /-- `GETRAMP index` (R195). -/
  | getramp (index : Word)
  /-- `RDREG addr` (R118). -/
  | rdreg (addr : BitVec 7)
  /-- `WRREG addr, value` (R119). -/
  | wrreg (addr : BitVec 7) (value : Word)
  /-- The read request on the wire (R113): sync, node, register address, checksum. -/
  | frameReadReq (sync node : Byte) (addr : BitVec 7) (crc : Byte)
  /-- The write request on the wire (R114). -/
  | frameWriteReq (sync node : Byte) (addr : BitVec 7) (value : Word) (crc : Byte)
  /-- A reply taken from the wire (R115); the three header bytes are not looked at. -/
  | frameReply (hdr0 hdr1 hdr2 : Byte) (value : Word) (crc : Byte)
  deriving DecidableEq, Repr

end Sys2Proof
end

