-- ==== Sys2Proof/Machine/Operands.lean ====
section
/-! DEFINITION. Every operand form: the fields of a command word (spec/30_encoding.md R81, R82), the opcode map (R83), the
assembly of a command word, and the bytes of a word. -/

namespace Sys2Proof.Machine

/-- `opcode`, bits 63:56 (R81). -/
def opcodeField (w : Word64) : Byte := w.extractLsb' 56 8

/-- `addr`, bits 55:48 (R81). -/
def addrField (w : Word64) : Byte := w.extractLsb' 48 8

/-- `rpm`, bits 47:32 (R81). -/
def rpmField (w : Word64) : U16 := w.extractLsb' 32 16

/-- `data`, bits 31:0 (R81). -/
def dataField (w : Word64) : Word := w.extractLsb' 0 32

/-- `opcode << 56 | addr << 48 | rpm << 32 | data` (R81). -/
def commandWord (opcode addr : Byte) (rpm : U16) (data : Word) : Word64 :=
  opcode ++ addr ++ rpm ++ data

/-! The opcode map (R83). -/

/-- `NOP`. -/
def opNop : Byte := 0x00#8
/-- `GOTO`. -/
def opGoto : Byte := 0x01#8
/-- `STOP`. -/
def opStop : Byte := 0x02#8
/-- `READY`. -/
def opReady : Byte := 0x03#8
/-- `SETPOS`. -/
def opSetpos : Byte := 0x04#8
/-- `SETINV`. -/
def opSetinv : Byte := 0x05#8
/-- `GETPOS`. -/
def opGetpos : Byte := 0x08#8
/-- `GETTGT`. -/
def opGettgt : Byte := 0x09#8
/-- `GETSTAT`. -/
def opGetstat : Byte := 0x0A#8
/-- `GETPROF`. -/
def opGetprof : Byte := 0x0B#8
/-- `GETRAMP`. -/
def opGetramp : Byte := 0x0C#8
/-- `RDREG`. -/
def opRdreg : Byte := 0x10#8
/-- `WRREG`. -/
def opWrreg : Byte := 0x11#8

/-- The invert bit as `data[0]` (R82). -/
def boolWord (b : Bool) : Word := if b then 1#32 else 0#32

/-- The `k` bytes of a number, most significant first: the table writes a frame as one number whose highest byte is
byte 0 (spec/opcode_table.json, notes of the frame rows). -/
def bytesOf (w : Nat) : Nat → List Byte
  | 0 => []
  | k + 1 => BitVec.ofNat 8 (w / 256 ^ k) :: bytesOf w k

end Sys2Proof.Machine
end

