-- ==== Sys2Proof/Config.lean ====
section
/-! DEFINITION. The configuration of the block: the constants the source fixes (spec/00_scope.md R8), the parameters it
leaves open with their defaults (R9), what a well-formed configuration is (R10), and the one free value of the model. -/

namespace Sys2Proof

/-- `BRAKE_MARGIN`: braking distance in steps per rpm (R8). -/
def brakeMargin : Nat := 25

/-- `RAMP_DIV`: rpm per ramp level (R8). -/
def rampDiv : Nat := 5

/-- `RAMP_MIN`: the fewest levels of a ramp (R8). -/
def rampMin : Nat := 2

/-- `PERIOD_NUM`: the numerator of a pulse period, microseconds in a second (R8). -/
def periodNum : Nat := 1000000

/-- `LINK_ATTEMPTS`: tries of a link procedure (R8). -/
def linkAttempts : Nat := 2

/-- The default sigmoid `SIG64`, Q15 (R153). -/
def sig64 : List Nat :=
  [0, 17, 38, 62, 93, 129, 173, 225, 289, 366, 458, 569, 702, 862, 1053, 1281] ++
  [1553, 1875, 2257, 2706, 3232, 3844, 4552, 5363, 6285, 7320, 8470, 9730, 11090, 12536, 14048, 15601] ++
  [17167, 18720, 20232, 21678, 23038, 24298, 25448, 26483, 27405, 28216, 28924, 29536, 30062, 30511, 30893, 31215] ++
  [31487, 31715, 31906, 32066, 32199, 32310, 32402, 32479, 32543, 32595, 32639, 32675, 32706, 32730, 32751, 32768]

/-- The thirteen parameters of R9, each under the name the table gives it. -/
structure Config where
  /-- `CAPACITY`: entries of the ramp table. -/
  capacity : Nat
  /-- `STEPS_PER_REV`: steps per motor revolution. -/
  stepsPerRev : Nat
  /-- `RPM_MAX`: the hard maximum `GOTO` clamps to. -/
  rpmMax : Nat
  /-- `RPM_FLOOR`: the ramp's floor speed. -/
  rpmFloor : Nat
  /-- `RPM_DIRECT`: below it a move is direct. -/
  rpmDirect : Nat
  /-- `SIG`: the sigmoid ROM, SIGROM of R60. -/
  sig : List Nat
  /-- `TICK_US`: period of the profile tick in microseconds. -/
  tickUs : Nat
  /-- `STEP_HIGH_US`: time the step pin stays asserted, in microseconds. -/
  stepHighUs : Nat
  /-- `NODE_ADDR`: byte 1 of each request frame. -/
  nodeAddr : Nat
  /-- `SYNC`: byte 0 of every request frame. -/
  sync : Nat
  /-- `BAUD`: the UART bit rate; it enters no rule (R111). -/
  baud : Nat
  /-- `RX_TIMEOUT_MS`: time one receive call waits. -/
  rxTimeoutMs : Nat
  /-- `VERIFY_DELAY_MS`: pause between a write and its read-back. -/
  verifyDelayMs : Nat
  deriving DecidableEq, Repr

/-- The default value of every parameter (R9). -/
def Config.default : Config where
  capacity := 64
  stepsPerRev := 1600
  rpmMax := 300
  rpmFloor := 30
  rpmDirect := 40
  sig := sig64
  tickUs := 10000
  stepHighUs := 2
  nodeAddr := 0x00
  sync := 0x05
  baud := 115200
  rxTimeoutMs := 20
  verifyDelayMs := 5

/-- R10(a). -/
def Config.wfCapacity (c : Config) : Bool := decide (3 ≤ c.capacity ∧ c.capacity ≤ 65536)

/-- R10(b). -/
def Config.wfSpeeds (c : Config) : Bool :=
  decide (1 ≤ c.rpmFloor ∧ c.rpmFloor ≤ c.rpmDirect ∧ c.rpmDirect ≤ c.rpmMax ∧ c.rpmMax ≤ 65535)

/-- R10(c); the slash there is the exact quotient (DEDUCED, log 14), so the bound is on the product. -/
def Config.wfRate (c : Config) : Bool :=
  decide (1 ≤ c.stepsPerRev ∧ c.rpmMax * c.stepsPerRev ≤ 100000 * 60)

/-- R10(d). -/
def Config.wfStepHigh (c : Config) : Bool := decide (1 ≤ c.stepHighUs ∧ c.stepHighUs ≤ 5)

/-- R10(e): 64 entries, exact ends, non-decreasing, point-symmetric. -/
def Config.wfSig (c : Config) : Bool :=
  decide (c.sig.length = 64 ∧ c.sig.getD 0 0 = 0 ∧ c.sig.getD 63 0 = 32768) &&
  ((List.range 63).all fun k => decide (c.sig.getD k 0 ≤ c.sig.getD (k + 1) 0)) &&
  ((List.range 64).all fun k => decide (c.sig.getD k 0 + c.sig.getD (63 - k) 0 = 32768))

/-- R10(f). -/
def Config.wfLink (c : Config) : Bool := decide (c.nodeAddr ≤ 0xFF ∧ c.sync ≤ 0xFF)

/-- A well-formed configuration: all of R10. The rules are claimed for these only; `step` refuses any other (log 1). -/
def Config.wf (c : Config) : Bool :=
  c.wfCapacity && c.wfSpeeds && c.wfRate && c.wfStepHigh && c.wfSig && c.wfLink

/-- FREE VALUE (DESIGN CHOICE, log 5). What WIRE answers at its `n`-th move past the end of the listed answers:
any bytes, under no law (R112, U3). It has no body: no proof can use what it is. -/
opaque Config.freeWireAnswer : Nat → List Byte

end Sys2Proof
end

