-- ==== Sys2Proof/Machine/Frames.lean ====
section
/-! DEFINITION. The bytes of the Register Link: the checksum (spec/40_register_link.md R110), the request frames (R113,
R114), the bytes of a reply (R115), byte order (20_memory.md R64) and the serial line levels of a frame (R65, R111). -/

namespace Sys2Proof.Machine

/-- One message bit entering the checksum register (R110). -/
def crcBit (crc : Byte) (b : Bool) : Byte :=
  if crc.getLsbD 7 ^^ b then (crc <<< 1) ^^^ 0x07#8 else crc <<< 1

/-- One byte entering the checksum register, bit 0 first (R110, R65). -/
def crcByte (crc b : Byte) : Byte :=
  (List.range 8).foldl (fun c j => crcBit c (b.getLsbD j)) crc

/-- `crc8(d)` (R110). -/
def crc8 (d : List Byte) : Byte :=
  d.foldl crcByte 0x00#8

/-- The four bytes of a register value, most significant first (R64). -/
def wordBytes (v : Word) : List Byte :=
  [v.extractLsb' 24 8, v.extractLsb' 16 8, v.extractLsb' 8 8, v.extractLsb' 0 8]

/-- The register value of four bytes, most significant first (R64, R115). -/
def bytesWord (b3 b2 b1 b0 : Byte) : Word :=
  b3 ++ b2 ++ b1 ++ b0

/-- Byte 2 of a read request: `addr & 0x7F` (R89). -/
def readAddrByte (addr : BitVec 7) : Byte :=
  addr.setWidth 8

/-- Byte 2 of a write request: `(addr & 0x7F) | 0x80` (R89). -/
def writeAddrByte (addr : BitVec 7) : Byte :=
  addr.setWidth 8 ||| 0x80#8

/-- The bytes of a read request with the given fields (R89). -/
def readReqBytes (sync node : Byte) (addr : BitVec 7) (crc : Byte) : Frame :=
  [sync, node, readAddrByte addr, crc]

/-- The bytes of a write request with the given fields (R89). -/
def writeReqBytes (sync node : Byte) (addr : BitVec 7) (value : Word) (crc : Byte) : Frame :=
  [sync, node, writeAddrByte addr] ++ wordBytes value ++ [crc]

/-- The bytes of a reply with the given fields (R89). -/
def replyBytes (hdr0 hdr1 hdr2 : Byte) (value : Word) (crc : Byte) : Frame :=
  [hdr0, hdr1, hdr2] ++ wordBytes value ++ [crc]

/-- The `SYNC` byte (R9, R89). -/
def syncByte (c : Config) : Byte := BitVec.ofNat 8 c.sync

/-- The `NODE_ADDR` byte (R9, R89). -/
def nodeByte (c : Config) : Byte := BitVec.ofNat 8 c.nodeAddr

/-- The checksum of `read_request(addr)` (R113). -/
def readReqCrc (c : Config) (addr : BitVec 7) : Byte :=
  crc8 [syncByte c, nodeByte c, readAddrByte addr]

/-- The checksum of `write_request(addr, value)` (R114). -/
def writeReqCrc (c : Config) (addr : BitVec 7) (value : Word) : Byte :=
  crc8 ([syncByte c, nodeByte c, writeAddrByte addr] ++ wordBytes value)

/-- `read_request(addr)` (R113). -/
def readRequest (c : Config) (addr : BitVec 7) : Frame :=
  readReqBytes (syncByte c) (nodeByte c) addr (readReqCrc c addr)

/-- `write_request(addr, value)` (R114). -/
def writeRequest (c : Config) (addr : BitVec 7) (value : Word) : Frame :=
  writeReqBytes (syncByte c) (nodeByte c) addr value (writeReqCrc c addr value)

/-- The answer of a well-behaved chip to `read_request(addr)` (R115); no rule of the block uses it. -/
def goodReply (addr : BitVec 7) (value : Word) : Frame :=
  let h := [0x05#8, 0xFF#8, readAddrByte addr] ++ wordBytes value
  h ++ [crc8 h]

/-- A frame of any length is valid when its last byte is the checksum of the others (R115, R122). -/
def frameValid (f : Frame) : Bool :=
  match f.getLast? with
  | none => false
  | some last => crc8 f.dropLast == last

/-- The levels of one UART character: start bit 0, eight data bits least significant first, stop bit 1 (R65, R111). -/
def serialByte (b : Byte) : List Bool :=
  [false] ++ (List.range 8).map b.getLsbD ++ [true]

/-- The levels of a whole frame, in order (R65, R111). -/
def serialFrame (f : Frame) : List Bool :=
  f.flatMap serialByte

end Sys2Proof.Machine
end

