-- ==== Sys2Proof/WellFormed.lean ====
section
/-! DEFINITION. Which instructions are well formed, under a configuration (spec/30_encoding.md R84, R89). The types of
Syntax.lean carry the other field checks: an address of 7 bits, an invert bit. -/

namespace Sys2Proof

/-- `GETRAMP` names an entry of the ramp table (R84, R195). -/
def wfIndex (c : Config) (index : Word) : Bool := decide (index.toNat < c.capacity)

/-- A request frame starts with `SYNC` and `NODE_ADDR` (R89, R113, R114). -/
def wfHeader (c : Config) (sync node : Byte) : Bool :=
  sync == Machine.syncByte c && node == Machine.nodeByte c

/-- The instruction is one the block can be given or can put on the wire. Any eight bytes are a reply (R115). -/
def Instr.wf (c : Config) : Instr → Bool
  | .nop => true
  | .goto _ _ => true
  | .stop => true
  | .ready => true
  | .setpos _ => true
  | .setinv _ => true
  | .getpos => true
  | .gettgt => true
  | .getstat => true
  | .getprof => true
  | .getramp index => wfIndex c index
  | .rdreg _ => true
  | .wrreg _ _ => true
  | .frameReadReq sync node addr crc => wfHeader c sync node && crc == Machine.readReqCrc c addr
  | .frameWriteReq sync node addr value crc => wfHeader c sync node && crc == Machine.writeReqCrc c addr value
  | .frameReply _ _ _ _ _ => true

end Sys2Proof
end

