-- ==== Sys2Proof/Decode.lean ====
section
/-! DEFINITION. The decoder, total on any bits and rejecting by name, and the encoder (spec/30_encoding.md R81 to R86, R89;
spec/opcode_table.json). The block has three places an instruction's bits stand: the command port, the frame it sends, and
the bytes it receives; each has its own decoder, since the same 64 bits mean different things there (log 7). -/

namespace Sys2Proof

open Machine

/-- Why bits are no instruction. -/
inductive DecodeError where
  /-- An opcode of R85. -/
  | undefinedOpcode
  /-- A field the command does not use is not zero (R84). -/
  | reservedField
  /-- A used field is out of its range (R84). -/
  | outOfRange
  /-- Bytes that are no frame of 4 or 8 (R90). -/
  | frameLength
  /-- The write flag, bit 7 of byte 2, does not fit the frame's length (R89). -/
  | frameDirection
  deriving DecidableEq, Repr

/-- Where an instruction's bits stand, and the bits. -/
inductive Encoded where
  /-- A word on the command port (R81). -/
  | command (w : Word64)
  /-- A frame the block sends (R113, R114). -/
  | sent (f : Frame)
  /-- A reply the block receives (R115). -/
  | received (f : Frame)
  deriving DecidableEq, Repr

/-- A command with no operand: every field but the opcode is zero (R84). -/
def decodePlain (w : Word64) (i : Instr) : Except DecodeError Instr :=
  if addrField w = 0#8 ∧ rpmField w = 0#16 ∧ dataField w = 0#32 then .ok i else .error .reservedField

/-- `GOTO`: every `rpm` and `data` is legal (R84). -/
def decodeGoto (w : Word64) : Except DecodeError Instr :=
  if addrField w = 0#8 then .ok (.goto (dataField w) (rpmField w)) else .error .reservedField

/-- `SETPOS`: every `data` is legal (R84). -/
def decodeSetpos (w : Word64) : Except DecodeError Instr :=
  if addrField w = 0#8 ∧ rpmField w = 0#16 then .ok (.setpos (dataField w)) else .error .reservedField

/-- `SETINV`: `data <= 1` (R84). -/
def decodeSetinv (w : Word64) : Except DecodeError Instr :=
  if addrField w = 0#8 ∧ rpmField w = 0#16 then
    if (dataField w).toNat ≤ 1 then .ok (.setinv ((dataField w).getLsbD 0)) else .error .outOfRange
  else .error .reservedField

/-- `GETRAMP`: `data < CAPACITY` (R84). -/
def decodeGetramp (c : Config) (w : Word64) : Except DecodeError Instr :=
  if addrField w = 0#8 ∧ rpmField w = 0#16 then
    if wfIndex c (dataField w) then .ok (.getramp (dataField w)) else .error .outOfRange
  else .error .reservedField

/-- `RDREG`: `addr <= 0x7F` (R84). -/
def decodeRdreg (w : Word64) : Except DecodeError Instr :=
  if rpmField w = 0#16 ∧ dataField w = 0#32 then
    if (addrField w).toNat ≤ 0x7F then .ok (.rdreg ((addrField w).setWidth 7)) else .error .outOfRange
  else .error .reservedField

/-- `WRREG`: `addr <= 0x7F`, every `data` is legal (R84). -/
def decodeWrreg (w : Word64) : Except DecodeError Instr :=
  if rpmField w = 0#16 then
    if (addrField w).toNat ≤ 0x7F then .ok (.wrreg ((addrField w).setWidth 7) (dataField w)) else .error .outOfRange
  else .error .reservedField

/-- The command port's decoder (R83 to R85). -/
def decodeCommand (c : Config) (w : Word64) : Except DecodeError Instr :=
  if opcodeField w = opNop then decodePlain w .nop
  else if opcodeField w = opGoto then decodeGoto w
  else if opcodeField w = opStop then decodePlain w .stop
  else if opcodeField w = opReady then decodePlain w .ready
  else if opcodeField w = opSetpos then decodeSetpos w
  else if opcodeField w = opSetinv then decodeSetinv w
  else if opcodeField w = opGetpos then decodePlain w .getpos
  else if opcodeField w = opGettgt then decodePlain w .gettgt
  else if opcodeField w = opGetstat then decodePlain w .getstat
  else if opcodeField w = opGetprof then decodePlain w .getprof
  else if opcodeField w = opGetramp then decodeGetramp c w
  else if opcodeField w = opRdreg then decodeRdreg w
  else if opcodeField w = opWrreg then decodeWrreg w
  else .error .undefinedOpcode

/-- The decoder of a frame being sent: four bytes with the write flag 0, or eight with it 1 (R89, R90). -/
def decodeSent : Frame → Except DecodeError Instr
  | [b0, b1, b2, b3] =>
    if b2.getLsbD 7 then .error .frameDirection else .ok (.frameReadReq b0 b1 (b2.setWidth 7) b3)
  | [b0, b1, b2, b3, b4, b5, b6, b7] =>
    if b2.getLsbD 7 then .ok (.frameWriteReq b0 b1 (b2.setWidth 7) (bytesWord b3 b4 b5 b6) b7)
    else .error .frameDirection
  | _ => .error .frameLength

/-- The decoder of a reply: any eight bytes (R115). -/
def decodeReceived : Frame → Except DecodeError Instr
  | [b0, b1, b2, b3, b4, b5, b6, b7] => .ok (.frameReply b0 b1 b2 (bytesWord b3 b4 b5 b6) b7)
  | _ => .error .frameLength

/-- The decoder. -/
def decode (c : Config) : Encoded → Except DecodeError Instr
  | .command w => decodeCommand c w
  | .sent f => decodeSent f
  | .received f => decodeReceived f

/-- The encoder, from the same tables (R81, R83, R89). -/
def encode : Instr → Encoded
  | .nop => .command (commandWord opNop 0 0 0)
  | .goto target rpm => .command (commandWord opGoto 0 rpm target)
  | .stop => .command (commandWord opStop 0 0 0)
  | .ready => .command (commandWord opReady 0 0 0)
  | .setpos p => .command (commandWord opSetpos 0 0 p)
  | .setinv b => .command (commandWord opSetinv 0 0 (boolWord b))
  | .getpos => .command (commandWord opGetpos 0 0 0)
  | .gettgt => .command (commandWord opGettgt 0 0 0)
  | .getstat => .command (commandWord opGetstat 0 0 0)
  | .getprof => .command (commandWord opGetprof 0 0 0)
  | .getramp index => .command (commandWord opGetramp 0 0 index)
  | .rdreg addr => .command (commandWord opRdreg (addr.setWidth 8) 0 0)
  | .wrreg addr value => .command (commandWord opWrreg (addr.setWidth 8) 0 value)
  | .frameReadReq sync node addr crc => .sent (readReqBytes sync node addr crc)
  | .frameWriteReq sync node addr value crc => .sent (writeReqBytes sync node addr value crc)
  | .frameReply hdr0 hdr1 hdr2 value crc => .received (replyBytes hdr0 hdr1 hdr2 value crc)

/-- The instruction a number of the opcode table stands for, with the place its bits stand at. The table does not say
whether 64 bits are a command, a request or a reply, so a legal command word is read as the command, other bits with the
write flag as a request, the rest as a reply (DESIGN CHOICE, log 7). -/
def tableEncoded (nbits w : Nat) : Option Encoded :=
  if nbits = 32 then some (.sent (bytesOf w 4))
  else if nbits = 64 then
    if (decodeCommand Config.default (BitVec.ofNat 64 w)).toOption.isSome then some (.command (BitVec.ofNat 64 w))
    else if (decodeSent (bytesOf w 8)).toOption.isSome then some (.sent (bytesOf w 8))
    else some (.received (bytesOf w 8))
  else none

/-- The instruction the decoder reads from an instruction of `nbits` bits whose bits are `w`, numbered as
spec/opcode_table.json numbers them: bit 0 is the least significant bit of the word, and a frame's byte 0 is its most
significant byte. The parameters are the defaults, as in the table. -/
def decodeTableWord (nbits w : Nat) : Option Instr :=
  (tableEncoded nbits w).bind fun e => (decode Config.default e).toOption

end Sys2Proof
end

