-- ==== Sys2Proof/Machine/State.lean ====
section
/-! DEFINITION. The state of the block (spec/10_state.md R20), the agents around it (00_scope.md R5), the reset state
(R43, R230), and the reasons a step can stop. -/

namespace Sys2Proof.Machine

/-- The direction of a move (R14, R23). -/
inductive Direction where
  | forward
  | reverse
  deriving DecidableEq, Repr

/-- The outcome a response reports (R88, R200). -/
inductive Status where
  | ok
  | noop
  | illegal
  | timeout
  | shortRead
  | crc
  | verifyFailed
  deriving DecidableEq, Repr

/-- The phases of the link sequencer (R123). -/
inductive LinkPhase where
  | idle
  | rFlushSend
  | rEcho
  | rReply
  | wFlushSend
  | wEcho
  | wDelay
  | respond
  deriving DecidableEq, Repr

/-- `MotionState` (R21 to R26). -/
structure MotionState where
  /-- `i32`, two's complement (R21). -/
  position : Word
  /-- `i32`, two's complement (R22). -/
  target : Word
  direction : Direction
  invert : Bool
  speedRpm : U16
  active : Bool
  deriving DecidableEq, Repr

/-- One entry of the ramp table with its index. -/
abbrev RampCell := Nat × U16

/-- The ramp table, RAMP of R60: the entries that are not 0, indexes strictly rising. An unlisted entry reads 0, its reset
value (R43; log 12). -/
abbrev RampTable := List RampCell

/-- `VelocityProfile` (R32 to R34). -/
structure VelocityProfile where
  rampSteps : U16
  rampTable : RampTable
  rampIndex : U16
  deriving DecidableEq, Repr

/-- The pulse timer, the tick timer and the step pin's counter (R28, R35 to R37). -/
structure Timers where
  /-- The programmed period (R35). -/
  period : U16
  /-- The period the running interval counts against (R36). -/
  periodAct : U16
  /-- Microseconds since the last alarm (R36). -/
  tcnt : U16
  /-- Microseconds since the last profile tick (R37). -/
  tickCnt : BitVec 32
  /-- Microseconds the step pin stays high (R28). -/
  stepHighCnt : Nat
  deriving DecidableEq, Repr

/-- The link sequencer (R38). -/
structure LinkState where
  phase : LinkPhase
  /-- The transaction is a `WRREG`. -/
  isWrite : Bool
  addr : BitVec 7
  data : Word
  /-- Write attempts done, 0 or 1. -/
  writeAttempts : Nat
  /-- Read attempts done, 0 or 1. -/
  readAttempts : Nat
  /-- The frame of the sending phase (log 9). -/
  txFrame : Frame
  /-- The bytes received so far in the current receive call. -/
  rx : List Byte
  /-- The error of the last failed read attempt. -/
  err : Status
  /-- Microseconds waited in the current receive call or delay (log 16). -/
  waitUs : Nat
  /-- `st` of R118 and R119: what the procedure returned, which RESPOND offers. -/
  status : Status
  /-- The value that RESPOND offers beside `status`: `v` of R118, 0 for a `WRREG` (R119). -/
  value : Word
  deriving DecidableEq, Repr

/-- No transaction runs: every other field is dead (R38; log 23). -/
def LinkState.idle : LinkState where
  phase := .idle
  isWrite := false
  addr := 0
  data := 0
  writeAttempts := 0
  readAttempts := 0
  txFrame := []
  rx := []
  err := .timeout
  waitUs := 0
  status := .ok
  value := 0

/-- Which agent moves next, or what happens next from outside (R5, R6, R71; log 2, 18). -/
inductive Turn where
  /-- HOST takes the offered response, or presents its next word (R80). -/
  | host
  /-- A PULSE event (R140). -/
  | pulse
  /-- A TICK event (R158). -/
  | tick
  /-- One LINK step of the event level: a receive call ends with WIRE's answer (R112). -/
  | link
  /-- LINK's place in one microsecond of the timed level: a receive call ends when its bytes are there or its time is over. -/
  | linkTimed
  /-- One microsecond passes (R210). -/
  | micro
  /-- A byte arrives at the receiver (R205), in whatever phase (log 25). -/
  | rxByte (b : Byte)
  /-- The reset input is asserted (R230). -/
  | reset
  deriving DecidableEq, Repr

/-- The machine: the block, the agents around it and what an observer has seen. -/
structure State where
  /-- The parameters (R9), fixed for the machine (log 1). -/
  cfg : Config
  motion : MotionState
  profile : VelocityProfile
  timers : Timers
  link : LinkState
  /-- The bytes the receiver holds that no receive call has taken (R112; log 25). -/
  rxHeld : List Byte
  /-- The response on offer: `rsp_valid` and `rsp_word` (R80, R231). -/
  rsp : Option Word64
  /-- The pulse log, oldest first (R42). -/
  pulseLog : List Bool
  /-- The transmit log, oldest first (R42). -/
  txLog : List Frame
  /-- The responses the host has taken, oldest first (R7; the model's own field, log 17). -/
  rspLog : List Word64
  /-- The words the host has still to present; the first one is on `cmd_word` (the model's own field, log 22). -/
  cmdQueue : List Word64
  /-- What WIRE will answer, next first (R112; the model's own field, log 22). -/
  wire : List (List Byte)
  /-- How many answers have been taken from the free value (the model's own field, log 5). -/
  wireCalls : Nat
  /-- Who moves next; when empty, one microsecond passes (the model's own field, log 2). -/
  turns : List Turn
  deriving DecidableEq, Repr

/-- Why a step ends in a fault. The block itself has none (R200); no run from reset reaches one. -/
inductive Fault where
  /-- Raised by TICK when it would read the ramp table at an index at or above `CAPACITY`, which does not exist (R13, R61;
  log 11). Safe. -/
  | rampIndexOutOfRange
  /-- Raised by a LINK step whose sending phase holds bytes that are no request frame (log 10). Safe. -/
  | malformedFrame
  deriving DecidableEq, Repr

/-- Why a step is refused. -/
inductive Refusal where
  /-- An instruction without a meaning, by its mnemonic; no arm of `exec` raises it. Safe. -/
  | notModelled (mnemonic : String)
  /-- Raised by `step` when the parameters break R10: "a model refuses any other" (U9; log 1). Safe. -/
  | illFormedConfig
  deriving DecidableEq, Repr

/-- `MotionState` after reset (R43). -/
def MotionState.reset : MotionState where
  position := 0
  target := 0
  direction := .forward
  invert := false
  speedRpm := 0
  active := false

/-- `VelocityProfile` after reset (R43). -/
def VelocityProfile.reset : VelocityProfile where
  rampSteps := 0
  rampTable := []
  rampIndex := 0

/-- The timers after reset (R43). -/
def Timers.reset : Timers where
  period := 65535
  periodAct := 65535
  tcnt := 0
  tickCnt := 0
  stepHighCnt := 0

/-- The machine right after reset (R43, R230), with the default parameters and nothing presented, listed or scheduled
(log 1, 22). -/
def State.reset : State where
  cfg := Config.default
  motion := MotionState.reset
  profile := VelocityProfile.reset
  timers := Timers.reset
  link := LinkState.idle
  rxHeld := []
  rsp := none
  pulseLog := []
  txLog := []
  rspLog := []
  cmdQueue := []
  wire := []
  wireCalls := 0
  turns := []

/-- The outcome of an event of this machine. -/
abbrev Outcome := Host.Outcome State Fault Refusal

end Sys2Proof.Machine
end

