-- ==== Sys2Proof/Machine/Flags.lean ====
section
/-! DEFINITION. Every derived signal and flag: `dir_pin`, `step_pin`, `ready`, `direct`, `remaining` (spec/10_state.md R27 to
R29, R32, 42_velocity_profiler.md R157, R160), the flag word of `GETSTAT` (44_status_commands.md R193), and the pins of
70_reset_and_hazards.md R231. -/

namespace Sys2Proof.Machine

/-- `ready`: `position = target`, whatever `active` is (R29). -/
def ready (s : State) : Bool := s.motion.position == s.motion.target

/-- `dir_pin = (1 if Forward else 0) XOR invert` (R27). -/
def dirPin (s : State) : Bool := (s.motion.direction == .forward) ^^ s.motion.invert

/-- `direct`: `ramp_steps = 1` (R32). -/
def direct (s : State) : Bool := s.profile.rampSteps == 1#16

/-- `remaining = abs(target - position)`, on unbounded integers (R157). -/
def remaining (s : State) : Nat := (s.motion.target.toInt - s.motion.position.toInt).natAbs

/-- The brake distance, `speed_rpm * BRAKE_MARGIN` (R25, glossary). -/
def brakeDistance (s : State) : Nat := s.motion.speedRpm.toNat * brakeMargin

/-- `step_pin`: high while the counter runs (R28). -/
def stepPin (s : State) : Bool := decide (0 < s.timers.stepHighCnt)

/-- A direction as the bit `GETSTAT` shows (R14). -/
def directionBit : Direction → Bool
  | .forward => false
  | .reverse => true

/-- `flags` of `GETSTAT`, bit 0 at the right (R193). -/
def statFlags (s : State) : Word :=
  0#26 ++ BitVec.ofBool (direct s) ++ BitVec.ofBool (dirPin s) ++ BitVec.ofBool s.motion.invert ++
    BitVec.ofBool (directionBit s.motion.direction) ++ BitVec.ofBool (ready s) ++ BitVec.ofBool s.motion.active

/-- The branch the next TICK would take (R160). -/
inductive MovePhase where
  | idle
  | direct
  | rampUp
  | cruise
  | brake
  | floorHold
  | stopping
  deriving DecidableEq, Repr

/-- The phase name of a state (R160). -/
def movePhase (s : State) : MovePhase :=
  if s.motion.active = false then .idle
  else if direct s then .direct
  else if brakeDistance s < remaining s then
    if s.profile.rampIndex.toNat + 1 < s.profile.rampSteps.toNat then .rampUp else .cruise
  else if 0 < s.profile.rampIndex.toNat then .brake
  else if 0 < remaining s then .floorHold
  else .stopping

/-! The pins (R231). -/

/-- `cmd_ready`: no response waits to be taken and no transaction runs (R80, R241). -/
def cmdReady (s : State) : Bool := s.rsp.isNone && s.link.phase == .idle

/-- `cmd_valid`. -/
def cmdValid (s : State) : Bool := !s.cmdQueue.isEmpty

/-- `cmd_word`; 0 while `cmd_valid` is 0 (log 21). -/
def cmdWord (s : State) : Word64 := s.cmdQueue.headD 0

/-- `rsp_valid`. -/
def rspValid (s : State) : Bool := s.rsp.isSome

/-- `rsp_word`; 0 while `rsp_valid` is 0, as R231 gives at reset (log 21). -/
def rspWord (s : State) : Word64 := s.rsp.getD 0

/-- `step_out`. -/
def stepOut (s : State) : Bool := stepPin s

/-- `dir_out`. -/
def dirOut (s : State) : Bool := dirPin s

/-- `uart_tx` between two events: the idle level, since a frame goes out inside one event (R65, R111; log 21). -/
def uartTx (_s : State) : Bool := true

/-- The levels `uart_tx` has shown since reset, one per bit time, the idle time between frames left out (R65, R111; log 21). -/
def uartTxLevels (s : State) : List Bool := s.txLog.flatMap serialFrame

/-- `uart_tx_en`: 1 only while a frame is being sent, which is the sending phase (log 21). -/
def uartTxEn (s : State) : Bool := s.link.phase == .rFlushSend || s.link.phase == .wFlushSend

end Sys2Proof.Machine
end

