-- ==== Sys2Proof/Machine/Ops.lean ====
section
/-! DEFINITION. The named operations every meaning is written over: the ramp table (spec/20_memory.md R61), answering a command
with a status, which is this block's form of an exception (30_encoding.md R87, 60_exceptions.md R200), integers narrowed
to `i32` (00_scope.md R12), the wire primitives (40_register_link.md R112), WIRE's answers, and reset (R230). -/

namespace Sys2Proof.Machine

/-! The ramp table. -/

/-- Entry `i`; an unlisted entry reads 0 (R43). -/
def RampTable.read : RampTable → Nat → U16
  | [], _ => 0
  | (j, v) :: t, i => if i = j then v else RampTable.read t i

/-- The table with entry `i` set to `v`, in canonical form: rising indexes, no zero listed. -/
def RampTable.write : RampTable → Nat → U16 → RampTable
  | [], i, v => if v = 0 then [] else [(i, v)]
  | (j, w) :: t, i, v =>
    if i < j then (if v = 0 then (j, w) :: t else (i, v) :: (j, w) :: t)
    else if i = j then (if v = 0 then t else (i, v) :: t)
    else (j, w) :: RampTable.write t i v

/-- Every listed index of the table lies above `b`, the indexes rise strictly, and no listed entry is 0. -/
def RampTable.wfAbove : Nat → RampTable → Bool
  | _, [] => true
  | b, (j, v) :: t => decide (b ≤ j) && decide (v ≠ 0) && RampTable.wfAbove (j + 1) t

/-- The canonical form (log 12). -/
def RampTable.wf (t : RampTable) : Bool := RampTable.wfAbove 0 t

/-- `RampRead(i)`; none at an index that does not exist (R13, R61). -/
def rampRead (s : State) (i : Nat) : Option U16 :=
  if i < s.cfg.capacity then some (s.profile.rampTable.read i) else none

/-! Answering a command. -/

/-- The number of a status (R88). -/
def statusCode : Status → Byte
  | .ok => 0x00#8
  | .noop => 0x01#8
  | .illegal => 0x02#8
  | .timeout => 0x10#8
  | .shortRead => 0x11#8
  | .crc => 0x12#8
  | .verifyFailed => 0x13#8

/-- `opcode << 56 | status << 48 | aux << 32 | value` (R87). -/
def responseWord (opcode : Byte) (st : Status) (aux : U16) (value : Word) : Word64 :=
  opcode ++ statusCode st ++ aux ++ value

/-- `respond(status, aux, value)`: the response is on offer from here on (R13, R87). This is the block's one way to end a
command, with `OK` or with any other status; nothing is saved and no handler is entered (R200, R207). -/
def State.answer (s : State) (opcode : Byte) (st : Status) (aux : U16) (value : Word) : State :=
  { s with rsp := some (responseWord opcode st aux value) }

/-- A word that is no command: answered `ILLEGAL` with its own opcode byte, and nothing else happens (R86). -/
def answerIllegal (w : Word64) (s : State) : State :=
  s.answer (opcodeField w) .illegal 0 0

/-! Narrowing. -/

/-- `sat32` (R12). -/
def sat32 (v : Int) : Word :=
  BitVec.ofInt 32 (max (-2 ^ 31) (min (2 ^ 31 - 1) v))

/-- `+1` for `Forward`, `-1` for `Reverse` (R171). -/
def directionSign : Direction → Int
  | .forward => 1
  | .reverse => -1

/-! The wire (R112). -/

/-- How many bytes the receive call of a phase asks for; 0 where none is open (R116, R117, R123). -/
def LinkPhase.expects : LinkPhase → Nat
  | .rEcho => 4
  | .rReply => 8
  | .wEcho => 8
  | .idle => 0
  | .rFlushSend => 0
  | .wFlushSend => 0
  | .wDelay => 0
  | .respond => 0

/-- `UartFlush()`. -/
def uartFlush (s : State) : State := { s with rxHeld := [] }

/-- `UartSend(f)`. -/
def uartSend (f : Frame) (s : State) : State := { s with txLog := s.txLog ++ [f] }

/-- A receive call opens in phase `p`: it takes what the receiver already holds, and its time starts. -/
def openReceive (p : LinkPhase) (s : State) : State :=
  { s with
    link := { s.link with phase := p, txFrame := [], rx := s.rxHeld.take p.expects, waitUs := 0 }
    rxHeld := s.rxHeld.drop p.expects }

/-- A byte arrives: the open receive call takes it if it still asks for one, else the receiver holds it (R112, R205). R205 has this
event only while a transaction runs; the model takes it in every phase, and a byte that no call asks for is held until the next
flush (DESIGN CHOICE, log 25). -/
def arrive (b : Byte) (s : State) : State :=
  if s.link.rx.length < s.link.phase.expects then { s with link := { s.link with rx := s.link.rx ++ [b] } }
  else { s with rxHeld := s.rxHeld ++ [b] }

/-- Bytes arrive, in order. -/
def arriveAll (bs : List Byte) (s : State) : State := bs.foldl (fun t b => arrive b t) s

/-- WIRE's next answer: the next listed one, or past the list's end the free value (log 5). -/
def wireAnswer (s : State) : List Byte :=
  match s.wire with
  | a :: _ => a
  | [] => Config.freeWireAnswer s.wireCalls

/-- WIRE has answered. -/
def wireNext (s : State) : State :=
  match s.wire with
  | _ :: as => { s with wire := as }
  | [] => { s with wireCalls := s.wireCalls + 1 }

/-! Reset. -/

/-- The reset event: every field of the block takes its value of R43, a command or transaction in progress is abandoned
(R230). The parameters and the agents around the block stay as they are (log 17). -/
def resetBlock (s : State) : State :=
  { State.reset with
    cfg := s.cfg, cmdQueue := s.cmdQueue, wire := s.wire, wireCalls := s.wireCalls, turns := s.turns }

end Sys2Proof.Machine
end

