-- ==== Sys2Proof/Machine/VelocityProfiler.lean ====
section
/-! DEFINITION. The Velocity Profile Engine: speed to period (spec/42_velocity_profiler.md R150 to R152), the ramp (R153 to R156)
and the TICK event (R157 to R159). -/

namespace Sys2Proof.Machine

/-- `sps(rpm)` (R150). -/
def sps (c : Config) (rpm : Nat) : Nat := max 1 (rpm * c.stepsPerRev / 60)

/-- `period_of(rpm)` (R151). -/
def periodOf (c : Config) (rpm : Nat) : Nat := min 65535 (periodNum / sps c rpm)

/-- `ramp_steps_of(rpm)` (R154). -/
def rampStepsOf (c : Config) (rpm : Nat) : Nat := max rampMin (min (c.capacity - 1) (rpm / rampDiv))

/-- `SIG[k]` (R62, R153). -/
def sigmoid (c : Config) (k : Nat) : Nat := c.sig.getD k 0

/-- `ramp_rpm(peak, n, i)` (R155). -/
def rampRpm (c : Config) (peak n i : Nat) : Nat :=
  c.rpmFloor + (peak - c.rpmFloor) * sigmoid c (63 * i / (n - 1)) / 32768

/-- A period as the `u16` that is stored (R35, R151). -/
def periodWord (c : Config) (rpm : Nat) : U16 := BitVec.ofNat 16 (periodOf c rpm)

/-- The loop of `plan`: entries `0 .. k - 1` of a ramp of `n` levels are written (R156). -/
def fillRamp (c : Config) (rpm n : Nat) : Nat → RampTable → RampTable
  | 0, t => t
  | k + 1, t => (fillRamp c rpm n k t).write k (periodWord c (rampRpm c rpm n k))

/-- `plan(distance, rpm)`; the distance has no effect (R156). -/
def plan (_distance rpm : Nat) (s : State) : State :=
  if rpm < s.cfg.rpmDirect then
    { s with
      profile := { s.profile with rampSteps := 1, rampIndex := 0 }
      timers := { s.timers with period := periodWord s.cfg rpm } }
  else
    let n := rampStepsOf s.cfg rpm
    let table := fillRamp s.cfg rpm n n s.profile.rampTable
    { s with
      profile := { rampSteps := BitVec.ofNat 16 n, rampTable := table, rampIndex := 0 }
      timers := { s.timers with period := table.read 0 } }

/-- `complete()` (R159). -/
def complete (s : State) : State :=
  { s with
    motion := { s.motion with active := false, speedRpm := 0 }
    profile := { s.profile with rampSteps := 0, rampIndex := 0 } }

/-- `ramp_index <- i; period <- RampRead(i)` (R158). -/
def selectLevel (i : Nat) (s : State) : Outcome :=
  match rampRead s i with
  | some p =>
    .next { s with
      profile := { s.profile with rampIndex := BitVec.ofNat 16 i }
      timers := { s.timers with period := p } }
  | none => .fault .rampIndexOutOfRange

/-- `period <- period_of(speed_rpm)`: the peak speed is held (R158). -/
def holdPeak (s : State) : State :=
  { s with timers := { s.timers with period := periodWord s.cfg s.motion.speedRpm.toNat } }

/-- TICK of a direct move (R158). -/
def tickDirect (s : State) : Outcome :=
  if remaining s = 0 then .next (complete s) else .next s

/-- TICK of a ramped move (R158). In the last branch the index is 0 already, so selecting level 0 changes `period` only. -/
def tickRamped (s : State) : Outcome :=
  if brakeDistance s < remaining s then
    if s.profile.rampIndex.toNat + 1 < s.profile.rampSteps.toNat then selectLevel (s.profile.rampIndex.toNat + 1) s
    else .next (holdPeak s)
  else if 0 < s.profile.rampIndex.toNat then selectLevel (s.profile.rampIndex.toNat - 1) s
  else if remaining s = 0 then .next (complete s)
  else selectLevel 0 s

/-- TICK (R158). -/
def tick (s : State) : Outcome :=
  if s.motion.active = false then .next s
  else if direct s then tickDirect s
  else tickRamped s

end Sys2Proof.Machine
end

