-- ==== Sys2Proof/Machine/Motion.lean ====
section
/-! DEFINITION. The motion commands (spec/43_motion_commands.md R170 to R174). -/

namespace Sys2Proof.Machine

/-- The direction of a move from `p` to `t`, compared as signed numbers (R23, R170). -/
def directionTo (p t : Word) : Direction :=
  if p.toInt < t.toInt then .forward else .reverse

/-- The clamped peak speed (R170). -/
def clampRpm (c : Config) (rpm : U16) : Nat := min rpm.toNat c.rpmMax

/-- The pulse timer starts a full first period (R213). -/
def restartPulseTimer (s : State) : State :=
  { s with timers := { s.timers with tcnt := 0, periodAct := s.timers.period } }

/-- An accepted `GOTO`: the ramp is planned, the motion fields are set, the pulse timer restarts (R170, R213). -/
def startMove (t : Word) (r : Nat) (s : State) : State :=
  let planned := plan (t.toInt - s.motion.position.toInt).natAbs r s
  restartPulseTimer
    { planned with
      motion :=
        { s.motion with
          direction := directionTo s.motion.position t
          target := t
          speedRpm := BitVec.ofNat 16 r
          active := true } }

/-- `GOTO target, rpm` (R170). -/
def execGoto (t : Word) (rpm : U16) (s : State) : Outcome :=
  if s.motion.active = true ∨ t = s.motion.position then .next (s.answer opGoto .noop 0 0)
  else .next ((startMove t (clampRpm s.cfg rpm) s).answer opGoto .ok 0 0)

/-- The target an effective `STOP` leaves (R171). -/
def stopTarget (s : State) : Word :=
  if direct s then sat32 (s.motion.position.toInt + directionSign s.motion.direction)
  else sat32 (s.motion.position.toInt + directionSign s.motion.direction * (brakeDistance s : Int))

/-- `STOP` (R171). -/
def execStop (s : State) : Outcome :=
  if s.motion.active = false ∨ ready s then .next (s.answer opStop .noop 0 0)
  else .next (State.answer { s with motion := { s.motion with target := stopTarget s } } opStop .ok 0 0)

/-- `READY` (R172). -/
def execReady (s : State) : Outcome :=
  .next (s.answer opReady .ok 0 (boolWord (ready s)))

/-- `SETPOS p` (R173). -/
def execSetpos (p : Word) (s : State) : Outcome :=
  if s.motion.active = true then .next (s.answer opSetpos .noop 0 0)
  else .next (State.answer { s with motion := { s.motion with position := p, target := p } } opSetpos .ok 0 0)

/-- `SETINV b` (R174). -/
def execSetinv (b : Bool) (s : State) : Outcome :=
  if s.motion.active = true then .next (s.answer opSetinv .noop 0 0)
  else .next (State.answer { s with motion := { s.motion with invert := b } } opSetinv .ok 0 0)

end Sys2Proof.Machine
end

