-- ==== Sys2Proof/Machine/RegisterLink.lean ====
section
/-! DEFINITION. The Register Link's procedures as the phases of its sequencer (spec/40_register_link.md R116, R117, R123), the two
commands that start a transaction (R118, R119), and the three frames (R113 to R115). -/

namespace Sys2Proof.Machine

/-- A read attempt begins: the next step sends the read request (R116). -/
def beginReadAttempt (s : State) : State :=
  { s with
    link := { s.link with
      phase := .rFlushSend, txFrame := readRequest s.cfg s.link.addr, rx := [], waitUs := 0 } }

/-- `read_register` begins: no attempt done, `err <- TIMEOUT` (R116). -/
def beginRead (s : State) : State :=
  beginReadAttempt { s with link := { s.link with readAttempts := 0, err := .timeout } }

/-- A write attempt begins: the next step sends the write request (R117). -/
def beginWriteAttempt (s : State) : State :=
  { s with
    link := { s.link with
      phase := .wFlushSend, txFrame := writeRequest s.cfg s.link.addr s.link.data, rx := [], waitUs := 0 } }

/-- The procedure returns `st` and `v`, and RESPOND is next (R118, R119, R123). -/
def enterRespond (st : Status) (v : Word) (s : State) : State :=
  { s with link := { s.link with phase := .respond, status := st, value := v, rx := [], waitUs := 0 } }

/-- The LINK step of RESPOND, `respond(st, 0, v)`: the response is on offer, the sequencer is idle, and nothing of the transaction
survives (R38, R118, R119, R123; log 24). -/
def offerResponse (s : State) : State :=
  State.answer { s with link := LinkState.idle } (if s.link.isWrite then opWrreg else opRdreg) s.link.status 0 s.link.value

/-- `read_register` has returned `(st, v)`: a `RDREG` answers it; a `WRREG` compares it with the value written, and its
attempt succeeds, is repeated, or was the last (R117, R118, R119). -/
def finishRead (st : Status) (v : Word) (s : State) : State :=
  if s.link.isWrite then
    if st = .ok ∧ v = s.link.data then enterRespond .ok 0 s
    else if s.link.writeAttempts + 1 < linkAttempts then
      beginWriteAttempt { s with link := { s.link with writeAttempts := s.link.writeAttempts + 1 } }
    else enterRespond .verifyFailed 0 s
  else enterRespond st v s

/-- A read attempt has failed with `e`: it is retried once, and the last attempt's error is returned (R116). -/
def failRead (e : Status) (s : State) : State :=
  if s.link.readAttempts + 1 < linkAttempts then
    beginReadAttempt { s with link := { s.link with readAttempts := s.link.readAttempts + 1, err := e } }
  else finishRead e 0 { s with link := { s.link with err := e } }

/-- The error of a receive call that yielded too few bytes (R116, R201). -/
def shortError (got : List Byte) : Status := if got.length = 0 then .timeout else .shortRead

/-- `RDREG addr` (R118): the transaction starts; the response comes when it ends. -/
def execRdreg (addr : BitVec 7) (s : State) : Outcome :=
  .next (beginRead { s with link := { LinkState.idle with addr := addr } })

/-- `WRREG addr, value` (R119): the transaction starts; the response comes when it ends. -/
def execWrreg (addr : BitVec 7) (value : Word) (s : State) : Outcome :=
  .next (beginWriteAttempt { s with link := { LinkState.idle with isWrite := true, addr := addr, data := value } })

/-- The read request goes out and its echo is awaited: `UartFlush(); UartSend(f); UartRecv(4)` opens (R113, R116; log 8). -/
def execFrameReadReq (sync node : Byte) (addr : BitVec 7) (crc : Byte) (s : State) : Outcome :=
  .next (openReceive .rEcho (uartSend (readReqBytes sync node addr crc) (uartFlush s)))

/-- The write request goes out and its echo is awaited: `UartFlush(); UartSend(f); UartRecv(8)` opens (R114, R117; log 8). -/
def execFrameWriteReq (sync node : Byte) (addr : BitVec 7) (value : Word) (crc : Byte) (s : State) : Outcome :=
  .next (openReceive .wEcho (uartSend (writeReqBytes sync node addr value crc) (uartFlush s)))

/-- A reply is taken by the read attempt that waits for it: a valid one ends the read with its value, another fails the
attempt with `CRC` (R115, R116). With no read attempt waiting, no receive call takes the bytes: the receiver holds them
(R112; log 8). -/
def execFrameReply (hdr0 hdr1 hdr2 : Byte) (value : Word) (crc : Byte) (s : State) : Outcome :=
  if s.link.phase = .rReply then
    if frameValid (replyBytes hdr0 hdr1 hdr2 value crc) then .next (finishRead .ok value s)
    else .next (failRead .crc s)
  else .next { s with rxHeld := s.rxHeld ++ replyBytes hdr0 hdr1 hdr2 value crc }

end Sys2Proof.Machine
end

