-- ==== Sys2Proof/Machine/StatusCommands.lean ====
section
/-! DEFINITION. The status commands (spec/44_status_commands.md R190 to R195). -/

namespace Sys2Proof.Machine

/-- `NOP` (R190). -/
def execNop (s : State) : Outcome :=
  .next (s.answer opNop .ok 0 0)

/-- `GETPOS` (R191). -/
def execGetpos (s : State) : Outcome :=
  .next (s.answer opGetpos .ok 0 s.motion.position)

/-- `GETTGT` (R192). -/
def execGettgt (s : State) : Outcome :=
  .next (s.answer opGettgt .ok 0 s.motion.target)

/-- `GETSTAT` (R193). -/
def execGetstat (s : State) : Outcome :=
  .next (s.answer opGetstat .ok s.motion.speedRpm (statFlags s))

/-- `GETPROF` (R194). -/
def execGetprof (s : State) : Outcome :=
  .next (s.answer opGetprof .ok s.timers.period (s.profile.rampSteps ++ s.profile.rampIndex))

/-- `GETRAMP index` (R195): an index that does not exist is answered `ILLEGAL`. -/
def execGetramp (index : Word) (s : State) : Outcome :=
  match rampRead s index.toNat with
  | some v => .next (s.answer opGetramp .ok 0 (v.setWidth 32))
  | none => .next (s.answer opGetramp .illegal 0 0)

end Sys2Proof.Machine
end

