-- ==== Sys2Proof/Machine/Dispatch.lean ====
section
/-! DEFINITION. The meaning of every instruction, one arm per constructor. -/

namespace Sys2Proof.Machine

def exec (i : Instr) (s : State) : Host.Outcome State Fault Refusal :=
  match i with
  | .nop => Sys2Proof.Machine.execNop s
  | .goto target rpm => Sys2Proof.Machine.execGoto target rpm s
  | .stop => Sys2Proof.Machine.execStop s
  | .ready => Sys2Proof.Machine.execReady s
  | .setpos p => Sys2Proof.Machine.execSetpos p s
  | .setinv b => Sys2Proof.Machine.execSetinv b s
  | .getpos => Sys2Proof.Machine.execGetpos s
  | .gettgt => Sys2Proof.Machine.execGettgt s
  | .getstat => Sys2Proof.Machine.execGetstat s
  | .getprof => Sys2Proof.Machine.execGetprof s
  | .getramp index => Sys2Proof.Machine.execGetramp index s
  | .rdreg addr => Sys2Proof.Machine.execRdreg addr s
  | .wrreg addr value => Sys2Proof.Machine.execWrreg addr value s
  | .frameReadReq sync node addr crc => Sys2Proof.Machine.execFrameReadReq sync node addr crc s
  | .frameWriteReq sync node addr value crc => Sys2Proof.Machine.execFrameWriteReq sync node addr value crc s
  | .frameReply hdr0 hdr1 hdr2 value crc => Sys2Proof.Machine.execFrameReply hdr0 hdr1 hdr2 value crc s

end Sys2Proof.Machine
end

