-- ==== Sys2Proof/Machine/PulseGenerator.lean ====
section
/-! DEFINITION. The Pulse Generator: the PULSE event (spec/41_pulse_generator.md R140 to R143) and the timers that raise events
(60_exceptions.md R210 to R215). -/

namespace Sys2Proof.Machine

/-- The position one step on in the direction of travel (R23, R140). -/
def stepPosition (d : Direction) (p : Word) : Word :=
  match d with
  | .forward => p + 1#32
  | .reverse => p - 1#32

/-- PULSE (R140): one step pulse and one step of `position`, or nothing. The pulse is an entry of the pulse log tagged
`dir_pin` (R142), and the step pin goes high (R141). -/
def pulse (s : State) : State :=
  if ready s then s
  else
    { s with
      motion := { s.motion with position := stepPosition s.motion.direction s.motion.position }
      timers := { s.timers with stepHighCnt := s.cfg.stepHighUs }
      pulseLog := s.pulseLog ++ [dirPin s] }

/-- The alarm of the pulse timer falls in this microsecond (R211). -/
def alarmDue (t : Timers) : Bool := decide (t.periodAct.toNat ≤ t.tcnt.toNat + 1)

/-- The tick timer wraps in this microsecond (R215). -/
def tickDue (c : Config) (t : Timers) : Bool := decide (c.tickUs ≤ t.tickCnt.toNat + 1)

/-- The timers after one microsecond (R28, R211, R215). -/
def countMicro (c : Config) (t : Timers) : Timers where
  period := t.period
  periodAct := if alarmDue t then t.period else t.periodAct
  tcnt := if alarmDue t then 0 else t.tcnt + 1
  tickCnt := if tickDue c t then 0 else t.tickCnt + 1
  stepHighCnt := t.stepHighCnt - 1

/-- The phases in which the link's wait counter runs (R112; log 16). -/
def LinkPhase.waits : LinkPhase → Bool
  | .rEcho => true
  | .rReply => true
  | .wEcho => true
  | .wDelay => true
  | .idle => false
  | .rFlushSend => false
  | .wFlushSend => false
  | .respond => false

/-- The link's wait counter after one microsecond (R38; log 16). -/
def countWait (l : LinkState) : LinkState :=
  if l.phase.waits then { l with waitUs := l.waitUs + 1 } else l

/-- The events the timers raise in this microsecond, PULSE before TICK (R206). -/
def raised (s : State) : List Turn :=
  (if alarmDue s.timers then [.pulse] else []) ++ (if tickDue s.cfg s.timers then [.tick] else [])

/-- One microsecond passes: the timers count, and what they raise happens before anything else (R206, R211, R215). -/
def microsecond (s : State) : State :=
  { s with
    timers := countMicro s.cfg s.timers
    link := countWait s.link
    turns := raised s ++ s.turns }

end Sys2Proof.Machine
end

