-- ==== Sys2Proof/Machine/Sequencer.lean ====
section
/-! DEFINITION. Fetching: what the HOST's move and a LINK step take from the port or the wire, decode and run
(spec/30_encoding.md R80, R86; 40_register_link.md R112, R116, R117, R123), and the placing of an instruction where the next step
fetches it. -/

namespace Sys2Proof.Machine

/-- A word is accepted: it is decoded and run, or answered `ILLEGAL` (R80, R86, R204). -/
def acceptCommand (w : Word64) (s : State) : Outcome :=
  match decodeCommand s.cfg w with
  | .ok i => exec i s
  | .error _ => .next (answerIllegal w s)

/-- HOST takes the offered response, which frees the port: the sequencer is idle by then (R80, R123). -/
def takeResponse (r : Word64) (s : State) : State := { s with rsp := none, rspLog := s.rspLog ++ [r] }

/-- HOST's move: it takes the offered response, else presents its next word, which is accepted if `cmd_ready` is 1 and
otherwise waits (R80, U13; log 4). -/
def hostMove (s : State) : Outcome :=
  match s.rsp with
  | some r => .next (takeResponse r s)
  | none =>
    match s.cmdQueue with
    | [] => .next s
    | w :: ws => if cmdReady s then acceptCommand w { s with cmdQueue := ws } else .next s

/-- A sending phase: the frame is decoded and run (R113, R114, R123). -/
def sendFrame (s : State) : Outcome :=
  match decodeSent s.link.txFrame with
  | .ok i => exec i s
  | .error _ => .fault .malformedFrame

/-- The receive call of the echo of a read request returns: only its length counts (R116). -/
def echoDone (got : List Byte) (s : State) : State :=
  if got.length < 4 then failRead (shortError got) s else openReceive .rReply s

/-- The receive call of the reply returns: too few bytes fail the attempt, eight are the reply (R116). -/
def replyDone (got : List Byte) (s : State) : Outcome :=
  match decodeReceived got with
  | .ok i => exec i s
  | .error _ => .next (failRead (shortError got) s)

/-- The receive call of the echo of a write request returns: neither length nor content counts (R117). -/
def writeEchoDone (s : State) : State :=
  { s with link := { s.link with phase := .wDelay, rx := [], waitUs := 0 } }

/-- The open receive call returns `got` (R112, R116, R117). -/
def receiveDone (got : List Byte) (s : State) : Outcome :=
  match s.link.phase with
  | .rEcho => .next (echoDone got s)
  | .rReply => replyDone got s
  | .wEcho => .next (writeEchoDone s)
  | .idle => .next s
  | .rFlushSend => .next s
  | .wFlushSend => .next s
  | .wDelay => .next s
  | .respond => .next s

/-- What the open receive call returns when WIRE answers `a`: what it has and then `a`, at most as many bytes as it asks for
(R112; log 6). -/
def received (a : List Byte) (s : State) : List Byte :=
  (s.link.rx ++ a).take s.link.phase.expects

/-- A receive call of the event level: one step, whose result WIRE supplies (R112). -/
def receiveCall (s : State) : Outcome :=
  receiveDone (received (wireAnswer s) s) (wireNext s)

/-- One LINK step of the event level: every arrow of R123, RESPOND to IDLE among them. -/
def linkStep (s : State) : Outcome :=
  match s.link.phase with
  | .idle => .next s
  | .rFlushSend => sendFrame s
  | .rEcho => receiveCall s
  | .rReply => receiveCall s
  | .wFlushSend => sendFrame s
  | .wEcho => receiveCall s
  | .wDelay => .next (beginRead s)
  | .respond => .next (offerResponse s)

/-- The open receive call has all its bytes, or its time is over (R112). -/
def receiveOver (s : State) : Bool :=
  decide (s.link.phase.expects ≤ s.link.rx.length ∨ s.cfg.rxTimeoutMs * 1000 ≤ s.link.waitUs)

/-- A receive call in one microsecond of the timed level: WIRE's bytes of that microsecond arrive, and the call returns if it
has all its bytes or its time is over (R112; log 6). A byte of the very microsecond in which the time runs out is still taken: R206
orders no two RX events (DESIGN CHOICE, log 26). -/
def receiveMicro (s : State) : Outcome :=
  let t := arriveAll (wireAnswer s) (wireNext s)
  if receiveOver t then receiveDone t.link.rx t else .next t

/-- LINK's place in one microsecond of the timed level (R112, R123, R206). -/
def linkTimed (s : State) : Outcome :=
  match s.link.phase with
  | .idle => .next s
  | .rFlushSend => sendFrame s
  | .rEcho => receiveMicro s
  | .rReply => receiveMicro s
  | .wFlushSend => sendFrame s
  | .wEcho => receiveMicro s
  | .wDelay => if s.cfg.verifyDelayMs * 1000 ≤ s.link.waitUs then .next (beginRead s) else .next s
  | .respond => .next (offerResponse s)

/-- The move at the head of the schedule happens (R5, R6, R71). -/
def performTurn (t : Turn) (s : State) : Outcome :=
  match t with
  | .host => hostMove s
  | .pulse => .next (pulse s)
  | .tick => tick s
  | .link => linkStep s
  | .linkTimed => linkTimed s
  | .micro => .next (microsecond s)
  | .rxByte b => .next (arrive b s)
  | .reset => .next (resetBlock s)

/-- With nothing scheduled the timed level runs: one microsecond, its PULSE, its TICK, then the host, then LINK (R206; log 2). -/
def timedMicrosecond (s : State) : State :=
  microsecond { s with turns := [.host, .linkTimed] }

/-! Placing an instruction where the next step fetches it (log 3). -/

/-- The port is free and the host presents `w` now. -/
def placeCommand (w : Word64) (s : State) : State :=
  { s with turns := .host :: s.turns, cmdQueue := w :: s.cmdQueue, rsp := none, link := LinkState.idle }

/-- The sequencer is about to send `f`, in the transaction `f` belongs to. -/
def placeSent (f : Frame) (s : State) : State :=
  { s with
    turns := .link :: s.turns
    rsp := none
    link :=
      match decodeSent f with
      | .ok (.frameReadReq _ _ addr _) =>
        { LinkState.idle with phase := .rFlushSend, addr := addr, txFrame := f }
      | .ok (.frameWriteReq _ _ addr value _) =>
        { LinkState.idle with phase := .wFlushSend, isWrite := true, addr := addr, data := value, txFrame := f }
      | _ => LinkState.idle }

/-- A read attempt waits for its reply, and WIRE answers `f`. -/
def placeReceived (f : Frame) (s : State) : State :=
  { s with
    turns := .link :: s.turns
    rsp := none
    wire := f :: s.wire
    link := { LinkState.idle with phase := .rReply } }

/-- An instruction's bits placed where they stand (R80, R112). -/
def place (e : Encoded) (s : State) : State :=
  match e with
  | .command w => placeCommand w s
  | .sent f => placeSent f s
  | .received f => placeReceived f s

end Sys2Proof.Machine
end

