-- ==== Sys2Proof/Machine/Step.lean ====
section
/-! DEFINITION. One step of the machine, and the placing of an instruction's bits where the next step fetches them. -/

namespace Sys2Proof.Machine

/-- One step: an ill-formed configuration is refused (R10, U9); else the scheduled move happens, or one microsecond of the
timed level passes (R6, R71, R206). -/
def step (s : State) : Host.Outcome State Fault Refusal :=
  if s.cfg.wf then
    match s.turns with
    | [] => .next (timedMicrosecond s)
    | t :: ts => performTurn t { s with turns := ts }
  else .refused .illFormedConfig

/-- `s` with the instruction whose `nbits` bits are `w`, numbered as spec/opcode_table.json numbers them, where the next step
fetches it: on the command port, in the frame about to be sent, or as WIRE's next answer (log 3, 7). -/
def State.withFetchWord (s : State) (nbits w : Nat) : State :=
  match tableEncoded nbits w with
  | some e => place e s
  | none => s

end Sys2Proof.Machine
end

