-- ==== Sys2Proof/Safety.lean ====
section
/-! DEFINITION. What counts as a safe run: the invariants the spec claims of every reachable state of a well-formed configuration
(spec/10_state.md R30, R31), what the link sequencer holds in each phase (R38, 40_register_link.md R123), and a step that does
not stop. -/

namespace Sys2Proof.Machine

/-- The ramp of the running move: every level below `ramp_steps` holds the period `plan` computed for it (R31(c), R33,
R156). -/
def RampPlanned (s : State) : Prop :=
  s.profile.rampSteps.toNat = rampStepsOf s.cfg s.motion.speedRpm.toNat ∧
  ∀ i, i < s.profile.rampSteps.toNat →
    s.profile.rampTable.read i =
      periodWord s.cfg (rampRpm s.cfg s.motion.speedRpm.toNat s.profile.rampSteps.toNat i)

/-- The invariants of the motion and profile fields. -/
structure MotionInv (s : State) : Prop where
  /-- INV1 (R30). -/
  rest_at_target : s.motion.active = false → s.motion.position = s.motion.target
  /-- R31(a). -/
  rest_zero : s.motion.active = false →
    s.motion.speedRpm = 0 ∧ s.profile.rampSteps = 0 ∧ s.profile.rampIndex = 0
  /-- R31(b), the range. -/
  steps_range : s.motion.active = true →
    1 ≤ s.profile.rampSteps.toNat ∧ s.profile.rampSteps.toNat ≤ s.cfg.capacity - 1
  /-- R31(b): one step exactly for a direct move, which is one below `RPM_DIRECT` (R156). -/
  direct_iff : s.motion.active = true →
    (s.profile.rampSteps.toNat = 1 ↔ s.motion.speedRpm.toNat < s.cfg.rpmDirect)
  /-- R31(c). -/
  index_range : s.profile.rampIndex.toNat < max s.profile.rampSteps.toNat 1
  /-- R31(d): PULSE steps toward the target. -/
  toward : s.motion.active = true → s.motion.position ≠ s.motion.target →
    (s.motion.direction = .forward ↔ s.motion.position.toInt < s.motion.target.toInt)
  /-- R31(e). -/
  speed_max : s.motion.speedRpm.toNat ≤ s.cfg.rpmMax
  /-- R31(f); the upper bound is the field's width. -/
  period_min : 10 ≤ s.timers.period.toNat
  /-- R31(c): what TICK reads was written by `plan` for this move. -/
  ramp_planned : s.motion.active = true → s.profile.rampSteps.toNat ≠ 1 → RampPlanned s
  /-- The ramp table has its canonical form. -/
  ramp_wf : s.profile.rampTable.wf = true
  /-- No entry stands at or above `CAPACITY` (R60). -/
  ramp_bounded : ∀ e ∈ s.profile.rampTable, e.1 < s.cfg.capacity

/-- The ranges of the hidden timers (R28, R36, R37, R211, R215). -/
structure TimerInv (s : State) : Prop where
  period_act_min : 10 ≤ s.timers.periodAct.toNat
  tcnt_range : s.timers.tcnt.toNat < s.timers.periodAct.toNat
  /-- Below `TICK_US` (R37, R215); `TICK_US` = 0 acts as 1, and above 2^32 the width is the bound (log 15). -/
  tick_range : s.timers.tickCnt.toNat < max s.cfg.tickUs 1
  step_high_range : s.timers.stepHighCnt ≤ s.cfg.stepHighUs

/-- What the link sequencer holds (R38, R116, R117, R123). -/
structure LinkInv (s : State) : Prop where
  idle_dead : s.link.phase = .idle → s.link = LinkState.idle
  /-- No response is on offer while a transaction runs (R80, R241). -/
  offer_phase : s.rsp.isSome = true → s.link.phase = .idle
  attempts : s.link.writeAttempts < linkAttempts ∧ s.link.readAttempts < linkAttempts
  rx_bound : s.link.rx.length ≤ s.link.phase.expects
  read_frame : s.link.phase = .rFlushSend → s.link.txFrame = readRequest s.cfg s.link.addr
  write_frame : s.link.phase = .wFlushSend → s.link.txFrame = writeRequest s.cfg s.link.addr s.link.data
  write_phase : s.link.phase = .wFlushSend ∨ s.link.phase = .wEcho ∨ s.link.phase = .wDelay →
    s.link.isWrite = true
  /-- What RESPOND is about to offer: for a `WRREG`, `OK` or `VERIFY_FAILED` with 0 (R117, R119); for a `RDREG`, a value with `OK`,
  or one of its three errors with 0 (R116, R118). -/
  respond_result : s.link.phase = .respond →
    if s.link.isWrite then (s.link.status = .ok ∨ s.link.status = .verifyFailed) ∧ s.link.value = 0
    else s.link.status = .ok ∨
      ((s.link.status = .timeout ∨ s.link.status = .shortRead ∨ s.link.status = .crc) ∧ s.link.value = 0)

/-- The invariant of every reachable state of a well-formed configuration. -/
structure Inv (s : State) : Prop where
  cfg_wf : s.cfg.wf = true
  motion : MotionInv s
  timers : TimerInv s
  link : LinkInv s

/-- The machine goes on. -/
def GoesOn (o : Outcome) : Prop := ∃ t, o = .next t

/-- The block's motion, profile and timer fields agree (R118, R119, R121: what a link transaction leaves alone). -/
def SameMotion (s t : State) : Prop :=
  t.motion = s.motion ∧ t.profile = s.profile ∧ t.timers = s.timers

/-- The link sequencer, the receiver and the transmit log agree (R121: what PULSE and TICK leave alone). -/
def SameLink (s t : State) : Prop :=
  t.link = s.link ∧ t.rxHeld = s.rxHeld ∧ t.txLog = s.txLog

/-- The parameters and everything outside the block agree: the host's words, WIRE's answers, the schedule, the observer's
log of responses. -/
def SameOutside (s t : State) : Prop :=
  t.cfg = s.cfg ∧ t.cmdQueue = s.cmdQueue ∧ t.wire = s.wire ∧ t.wireCalls = s.wireCalls ∧ t.turns = s.turns ∧
    t.rspLog = s.rspLog

end Sys2Proof.Machine
end

