-- ==== Sys2Proof/Certificates/Slice0/Obligations.lean ====
section
/-! DEFINITION. The statements for the provers. Each cites the rules of spec/ it formalises. -/

namespace Sys2Proof.Statements

open Sys2Proof.Machine

/-- A 64-bit word of the port, `a << 56 | b << 48 | c << 32 | d` (R81, R87). -/
def portWord (a b : Byte) (c : U16) (d : Word) : Word64 :=
  a.setWidth 64 <<< 56 ||| b.setWidth 64 <<< 48 ||| c.setWidth 64 <<< 32 ||| d.setWidth 64

/-- The state that differs from `s` in the response on offer only: `respond(status, aux, value)` (R87). -/
def answered (s : State) (opcode status : Byte) (aux : U16) (value : Word) : State :=
  { s with rsp := some (portWord opcode status aux value) }

/-- The answer to a word that is no command: `respond(ILLEGAL, 0, 0)`, nothing else (R86). -/
def illegal (s : State) (opcode : Byte) : State := answered s opcode 0x02#8 0#16 0#32

/-- Among the words of one opcode, only the one with every other field zero is the command `i` (R84). -/
def OnlyPlainWord (opcode : Byte) (i : Instr) : Prop :=
  ∀ (addr : Byte) (rpm : U16) (data : Word) (s : State),
    acceptCommand (portWord opcode addr rpm data) s =
      if addr.toNat = 0 ∧ rpm.toNat = 0 ∧ data.toNat = 0 then exec i s else .next (illegal s opcode)

/-- What `plan(_, r)` makes of a profile, and the period it programs (R156). -/
def PlannedAs (c : Config) (r : Nat) (before after : VelocityProfile) (period : U16) : Prop :=
  if r < c.rpmDirect then
    after = { before with rampSteps := 1, rampIndex := 0 } ∧ period.toNat = periodOf c r
  else
    after.rampSteps.toNat = max 2 (min (c.capacity - 1) (r / 5)) ∧ after.rampIndex.toNat = 0 ∧
    (∀ i, i < after.rampSteps.toNat →
      (after.rampTable.read i).toNat = periodOf c (rampRpm c r after.rampSteps.toNat i)) ∧
    (∀ i, after.rampSteps.toNat ≤ i → after.rampTable.read i = before.rampTable.read i) ∧
    period = after.rampTable.read 0 ∧ period.toNat = periodOf c c.rpmFloor

/-- The state after `complete()` (R159). -/
def completed (s : State) : State :=
  { s with
    motion := { s.motion with active := false, speedRpm := 0 }
    profile := { s.profile with rampSteps := 0, rampIndex := 0 } }

/-- The state with another index and the period of that table entry. -/
def atLevel (s : State) (i : U16) : State :=
  { s with
    profile := { s.profile with rampIndex := i }
    timers := { s.timers with period := s.profile.rampTable.read i.toNat } }

/-- The state with `period` programmed anew and nothing else. -/
def withPeriod (s : State) (p : U16) : State := { s with timers := { s.timers with period := p } }

/-- The procedure has returned `st` and `v`, and the sequencer `l` is in RESPOND, about to offer them (log 24). -/
def responding (s : State) (l : LinkState) (st : Status) (v : Word) : State :=
  { s with link := { l with phase := .respond, status := st, value := v, rx := [], waitUs := 0 } }

/-- The transaction is over, its response on offer and the sequencer idle, its fields dead (log 23). -/
def offered (s : State) (opcode status : Byte) (value : Word) : State :=
  { s with link := LinkState.idle, rsp := some (portWord opcode status 0 value) }

/-- A read attempt is about to send its request; `n` attempts are done and the last error is `e`. -/
def readingAgain (s : State) (n : Nat) (e : Status) : State :=
  { s with
    link := { s.link with
      phase := .rFlushSend, readAttempts := n, err := e, txFrame := readRequest s.cfg s.link.addr, rx := [], waitUs := 0 } }

/-- A write attempt is about to send its request; `n` attempts are done. -/
def writingAgain (s : State) (n : Nat) (l : LinkState) : State :=
  { s with
    link := { l with
      phase := .wFlushSend, writeAttempts := n, txFrame := writeRequest s.cfg l.addr l.data, rx := [], waitUs := 0 } }

/-- The bytes `h ++ [crc8(h)]` (R113, R114, R115). -/
def sealed (h : List Byte) : Frame := h ++ [crc8 h]

/-- Byte `k` of a value counted from the least significant end (R64). -/
def byteOf (v : Word) (k : Nat) : Byte := (v >>> (8 * k)).setWidth 8

/-- A read request (R113). -/
def readFrame (c : Config) (addr : BitVec 7) : Frame :=
  sealed [BitVec.ofNat 8 c.sync, BitVec.ofNat 8 c.nodeAddr, BitVec.ofNat 8 addr.toNat]

/-- A write request (R114). -/
def writeFrame (c : Config) (addr : BitVec 7) (v : Word) : Frame :=
  sealed [BitVec.ofNat 8 c.sync, BitVec.ofNat 8 c.nodeAddr, BitVec.ofNat 8 (addr.toNat + 0x80),
    byteOf v 3, byteOf v 2, byteOf v 1, byteOf v 0]

/-! The procedures of R116 and R117 on the list of WIRE's answers, written from their pseudocode, with no sequencer. -/

/-- The error of a receive call that is short (R116). -/
def tooShort (got : List Byte) : Status := if got = [] then .timeout else .shortRead

/-- One read attempt: its value or its error, and how many answers it takes (R116). -/
def readAttempt (answers : List (List Byte)) : Except Status Word × Nat :=
  let echo := (answers.getD 0 []).take 4
  let reply := (answers.getD 1 []).take 8
  if echo.length < 4 then (.error (tooShort echo), 1)
  else if reply.length < 8 then (.error (tooShort reply), 2)
  else if crc8 (reply.take 7) = reply.getD 7 0 then
    (.ok ((reply.getD 3 0).setWidth 32 <<< 24 ||| (reply.getD 4 0).setWidth 32 <<< 16 |||
      (reply.getD 5 0).setWidth 32 <<< 8 ||| (reply.getD 6 0).setWidth 32), 2)
  else (.error .crc, 2)

/-- What a procedure returns, the frames it sent, and how many receive calls and delays it made. -/
structure Returned where
  status : Status
  value : Word
  frames : List Frame
  calls : Nat
  delays : Nat
  deriving DecidableEq, Repr

/-- `read_register(addr)` with `k` attempts left and `err` so far (R116). -/
def readRegister (c : Config) (addr : BitVec 7) : Nat → Status → List (List Byte) → Returned
  | 0, err, _ => { status := err, value := 0, frames := [], calls := 0, delays := 0 }
  | k + 1, _, answers =>
    match readAttempt answers with
    | (.ok v, n) => { status := .ok, value := v, frames := [readFrame c addr], calls := n, delays := 0 }
    | (.error e, n) =>
      let r := readRegister c addr k e (answers.drop n)
      { r with frames := readFrame c addr :: r.frames, calls := n + r.calls }

/-- `write_register(addr, v)` with `k` attempts left (R117). -/
def writeRegister (c : Config) (addr : BitVec 7) (v : Word) : Nat → List (List Byte) → Returned
  | 0, _ => { status := .verifyFailed, value := 0, frames := [], calls := 0, delays := 0 }
  | k + 1, answers =>
    let back := readRegister c addr 2 .timeout (answers.drop 1)
    if back.status = .ok ∧ back.value = v then
      { status := .ok, value := 0, frames := writeFrame c addr v :: back.frames, calls := 1 + back.calls, delays := 1 }
    else
      let r := writeRegister c addr v k (answers.drop (1 + back.calls))
      { r with
        frames := writeFrame c addr v :: back.frames ++ r.frames
        calls := 1 + back.calls + r.calls
        delays := 1 + r.delays }

/-- The LINK steps of a transaction: one for each frame, receive call and delay of its procedure, and the one of RESPOND (R123). -/
def Returned.steps (r : Returned) : Nat := r.frames.length + r.calls + r.delays + 1

/-- `u`'s move, then nothing more scheduled but `us`. -/
def scheduled (s : State) (us : List Turn) : State := { s with turns := us }

/-- The phases that `n` LINK steps of the event level, one after another, start from. -/
def linkPhases : Nat → State → List LinkPhase
  | 0, _ => []
  | n + 1, s =>
    s.link.phase ::
      match step (scheduled s [.link]) with
      | .next t => linkPhases n t
      | .fault _ => []
      | .refused _ => []

/-- The phase is a receive call (R123). -/
def receives (p : LinkPhase) : Bool := decide (0 < p.expects)

/-- LINK steps that a read can still take before its last attempt is over, in the phase after `done` failed attempts. -/
def readRank (done : Nat) : LinkPhase → Nat
  | .rFlushSend => 3 * (2 - done)
  | .rEcho => 3 * (2 - done) - 1
  | .rReply => 3 * (2 - done) - 2
  | .idle => 0
  | .wFlushSend => 0
  | .wEcho => 0
  | .wDelay => 0
  | .respond => 0

/-- LINK steps that the write attempts after the current one can take; a `RDREG` has none. -/
def laterAttempts (l : LinkState) : Nat := if l.isWrite then 9 * (1 - l.writeAttempts) else 0

/-- LINK steps that the transaction can still take until its response is on offer (R116, R117, R120, R123): a write attempt takes at
most 9, a read attempt at most 3, RESPOND takes 1. -/
def linkRank (l : LinkState) : Nat :=
  match l.phase with
  | .idle => 0
  | .respond => 1
  | .wFlushSend => 9 * (2 - l.writeAttempts) + 1
  | .wEcho => 9 * (2 - l.writeAttempts)
  | .wDelay => 9 * (2 - l.writeAttempts) - 1
  | .rFlushSend => readRank l.readAttempts l.phase + laterAttempts l + 1
  | .rEcho => readRank l.readAttempts l.phase + laterAttempts l + 1
  | .rReply => readRank l.readAttempts l.phase + laterAttempts l + 1

/-- The microseconds a phase may wait for, at the timed level (R112). -/
def waitLimit (c : Config) : LinkPhase → Nat
  | .rEcho => c.rxTimeoutMs * 1000
  | .rReply => c.rxTimeoutMs * 1000
  | .wEcho => c.rxTimeoutMs * 1000
  | .wDelay => c.verifyDelayMs * 1000
  | .idle => 0
  | .rFlushSend => 0
  | .wFlushSend => 0
  | .respond => 0

/-- The sequencer after one microsecond: in a receive call and in the delay its wait counter counts, and nothing else of it ever
changes (R38, R112; log 16). -/
def waited (l : LinkState) : LinkState :=
  if l.phase = .rEcho ∨ l.phase = .rReply ∨ l.phase = .wEcho ∨ l.phase = .wDelay then { l with waitUs := l.waitUs + 1 } else l

/-- One microsecond has passed from `s`, with `us` scheduled after what it raises (R28, R206, R211, R215): the pulse timer counts or
raises an alarm and reloads, the tick timer counts or wraps, the link waits, and every other field stays. -/
def MicroPassed (s : State) (us : List Turn) (t : State) : Prop :=
  ∃ ti : Timers,
    t = { s with
      timers := ti
      link := waited s.link
      turns :=
        (if s.timers.tcnt.toNat + 1 ≥ s.timers.periodAct.toNat then [.pulse] else []) ++
        (if s.timers.tickCnt.toNat + 1 ≥ s.cfg.tickUs then [.tick] else []) ++ us } ∧
    ti.period = s.timers.period ∧ ti.stepHighCnt = s.timers.stepHighCnt - 1 ∧
    (if s.timers.tcnt.toNat + 1 ≥ s.timers.periodAct.toNat then ti.tcnt.toNat = 0 ∧ ti.periodAct = s.timers.period
     else ti.tcnt.toNat = s.timers.tcnt.toNat + 1 ∧ ti.periodAct = s.timers.periodAct) ∧
    (if s.timers.tickCnt.toNat + 1 ≥ s.cfg.tickUs then ti.tickCnt.toNat = 0 else ti.tickCnt = s.timers.tickCnt + 1)

/-- One message bit `m` entering the checksum register, on plain numbers, from the pseudocode of R110. -/
def crcRegister (crc m : Nat) : Nat :=
  if (crc / 128 % 2) ^^^ m = 1 then (crc * 2 % 256) ^^^ 0x07 else crc * 2 % 256

/-- A byte entering the checksum register, bit `j` for `j` from 0 to 7 (R110). -/
def crcRegisterByte (crc b : Nat) : Nat :=
  (List.range 8).foldl (fun c j => crcRegister c (b / 2 ^ j % 2)) crc

/-- The state a transaction leaves when the host presented its word and only HOST, once, and LINK moved: the response on offer and
the sequencer idle, its fields dead (log 23). -/
def afterTransaction (s : State) (ws : List Word64) (opcode : Byte) (r : Returned) : State :=
  { s with
    turns := []
    cmdQueue := ws
    wire := s.wire.drop r.calls
    rxHeld := []
    txLog := s.txLog ++ r.frames
    link := LinkState.idle
    rsp := some (portWord opcode (statusCode r.status) 0 r.value) }

/-- A command word that R84 allows, field by field. -/
def LegalWord (c : Config) (opcode addr : Byte) (rpm : U16) (data : Word) : Prop :=
  (opcode.toNat ∈ [0x00, 0x02, 0x03, 0x08, 0x09, 0x0A, 0x0B] ∧ addr.toNat = 0 ∧ rpm.toNat = 0 ∧ data.toNat = 0) ∨
  (opcode.toNat = 0x01 ∧ addr.toNat = 0) ∨
  (opcode.toNat = 0x04 ∧ addr.toNat = 0 ∧ rpm.toNat = 0) ∨
  (opcode.toNat = 0x05 ∧ addr.toNat = 0 ∧ rpm.toNat = 0 ∧ data.toNat ≤ 1) ∨
  (opcode.toNat = 0x0C ∧ addr.toNat = 0 ∧ rpm.toNat = 0 ∧ data.toNat < c.capacity) ∨
  (opcode.toNat = 0x10 ∧ addr.toNat ≤ 0x7F ∧ rpm.toNat = 0 ∧ data.toNat = 0) ∨
  (opcode.toNat = 0x11 ∧ addr.toNat ≤ 0x7F ∧ rpm.toNat = 0)

/-- The `match` and `mask` of a command's row of spec/opcode_table.json; none for a frame. -/
def tableRow : Instr → Option (Word64 × Word64)
  | .nop => some (0x0000000000000000, 0xFFFFFFFFFFFFFFFF)
  | .goto _ _ => some (0x0100000000000000, 0xFFFF000000000000)
  | .stop => some (0x0200000000000000, 0xFFFFFFFFFFFFFFFF)
  | .ready => some (0x0300000000000000, 0xFFFFFFFFFFFFFFFF)
  | .setpos _ => some (0x0400000000000000, 0xFFFFFFFF00000000)
  | .setinv _ => some (0x0500000000000000, 0xFFFFFFFFFFFFFFFE)
  | .getpos => some (0x0800000000000000, 0xFFFFFFFFFFFFFFFF)
  | .gettgt => some (0x0900000000000000, 0xFFFFFFFFFFFFFFFF)
  | .getstat => some (0x0A00000000000000, 0xFFFFFFFFFFFFFFFF)
  | .getprof => some (0x0B00000000000000, 0xFFFFFFFFFFFFFFFF)
  | .getramp _ => some (0x0C00000000000000, 0xFFFFFFFFFFFFFFC0)
  | .rdreg _ => some (0x1000000000000000, 0xFF80FFFFFFFFFFFF)
  | .wrreg _ _ => some (0x1100000000000000, 0xFF80FFFF00000000)
  | .frameReadReq _ _ _ _ => none
  | .frameWriteReq _ _ _ _ _ => none
  | .frameReply _ _ _ _ _ => none

/-- `t` is what the outcome goes on with. -/
def mapNext (f : State → State) : Outcome → Outcome
  | .next t => .next (f t)
  | .fault r => .fault r
  | .refused r => .refused r

/-- The state with other link fields. -/
def withLink (l : LinkState) (held : List Byte) (tx : List Frame) (s : State) : State :=
  { s with link := l, rxHeld := held, txLog := tx }

/-- The state with other motion, profile and timer fields. -/
def withMotion (m : MotionState) (p : VelocityProfile) (ti : Timers) (s : State) : State :=
  { s with motion := m, profile := p, timers := ti }

/-- The command the host's move accepts in `s`, if it does. -/
def Accepts (s : State) (i : Instr) : Prop :=
  ∃ w ws us, s.turns = .host :: us ∧ s.rsp = none ∧ s.link.phase = .idle ∧ s.cmdQueue = w :: ws ∧
    decodeCommand s.cfg w = .ok i

end Sys2Proof.Statements

open Sys2Proof Sys2Proof.Machine Sys2Proof.Statements

/-! ## Status commands -/

/-- R190. `NOP` answers the all-zero word and changes nothing else; any other word of its opcode is `ILLEGAL`. -/
def Obligations.NopAnswersAllZeroWord : Prop :=
  (∀ s : State, exec .nop s = .next { s with rsp := some 0x0000000000000000#64 }) ∧ OnlyPlainWord 0x00#8 .nop

/-- R191. `GETPOS` answers `position` as its two's-complement pattern and changes nothing else. -/
def Obligations.GetposAnswersPosition : Prop :=
  (∀ s : State, exec .getpos s = .next (answered s 0x08#8 0x00#8 0#16 s.motion.position)) ∧
  OnlyPlainWord 0x08#8 .getpos

/-- R192. `GETTGT` answers `target` and changes nothing else. -/
def Obligations.GettgtAnswersTarget : Prop :=
  (∀ s : State, exec .gettgt s = .next (answered s 0x09#8 0x00#8 0#16 s.motion.target)) ∧
  OnlyPlainWord 0x09#8 .gettgt

/-- R193. `GETSTAT` answers `speed_rpm` and the six flags, the other bits 0, and changes nothing else; bit 4 is
`(NOT bit 2) XOR bit 3`, and where INV1 holds bit 0 = 0 implies bit 1 = 1. -/
def Obligations.GetstatReportsFlags : Prop :=
  (∀ s : State, ∃ flags : Word,
    exec .getstat s = .next (answered s 0x0A#8 0x00#8 s.motion.speedRpm flags) ∧
    flags.getLsbD 0 = s.motion.active ∧
    flags.getLsbD 1 = decide (s.motion.position = s.motion.target) ∧
    flags.getLsbD 2 = decide (s.motion.direction = .reverse) ∧
    flags.getLsbD 3 = s.motion.invert ∧
    flags.getLsbD 4 = (decide (s.motion.direction = .forward) ^^ s.motion.invert) ∧
    flags.getLsbD 5 = decide (s.profile.rampSteps.toNat = 1) ∧
    (∀ k, 6 ≤ k → flags.getLsbD k = false) ∧
    flags.getLsbD 4 = (!flags.getLsbD 2 ^^ flags.getLsbD 3) ∧
    ((s.motion.active = false → s.motion.position = s.motion.target) →
      flags.getLsbD 0 = false → flags.getLsbD 1 = true)) ∧
  OnlyPlainWord 0x0A#8 .getstat

/-- R194. `GETPROF` answers `period` and `ramp_steps << 16 | ramp_index` and changes nothing else. -/
def Obligations.GetprofReportsProfile : Prop :=
  (∀ s : State,
    exec .getprof s =
      .next (answered s 0x0B#8 0x00#8 s.timers.period
        (s.profile.rampSteps.setWidth 32 <<< 16 ||| s.profile.rampIndex.setWidth 32))) ∧
  OnlyPlainWord 0x0B#8 .getprof

/-- R195. `GETRAMP index` answers the entry and changes nothing else; `addr`, `rpm` not 0 or `index >= CAPACITY` is
`ILLEGAL`. -/
def Obligations.GetrampReadsEntry : Prop :=
  (∀ (index : Word) (s : State),
    exec (.getramp index) s =
      .next (if index.toNat < s.cfg.capacity then
          answered s 0x0C#8 0x00#8 0#16 (BitVec.ofNat 32 (s.profile.rampTable.read index.toNat).toNat)
        else illegal s 0x0C#8)) ∧
  (∀ (addr : Byte) (rpm : U16) (data : Word) (s : State),
    acceptCommand (portWord 0x0C#8 addr rpm data) s =
      if addr.toNat = 0 ∧ rpm.toNat = 0 ∧ data.toNat < s.cfg.capacity then exec (.getramp data) s
      else .next (illegal s 0x0C#8))

/-! ## Motion commands -/

/-- R172. `READY` answers 1 exactly when `position = target`, whatever `active` is, and changes nothing else. -/
def Obligations.ReadyComparesPositionTarget : Prop :=
  (∀ s : State,
    exec .ready s =
      .next (answered s 0x03#8 0x00#8 0#16 (if s.motion.position.toInt = s.motion.target.toInt then 1#32 else 0#32))) ∧
  OnlyPlainWord 0x03#8 .ready

/-- R170. `GOTO` is a no-op during a move or at the target; otherwise it sets the motion fields, plans the profile (as R156 has
it), restarts the pulse timer (as R213 has it), and changes nothing else. `addr` not 0 is `ILLEGAL`. -/
def Obligations.GotoStartsPlannedMoveOrNoop : Prop :=
  (∀ (t : Word) (rpm : U16) (s : State), s.cfg.wf = true → s.profile.rampTable.wf = true →
    if s.motion.active = true ∨ t = s.motion.position then
      exec (.goto t rpm) s = .next (answered s 0x01#8 0x01#8 0#16 0#32)
    else
      ∃ (profile : VelocityProfile) (period : U16),
        PlannedAs s.cfg (min rpm.toNat s.cfg.rpmMax) s.profile profile period ∧
        exec (.goto t rpm) s =
          .next (answered
            { s with
              motion :=
                { position := s.motion.position
                  target := t
                  direction := if s.motion.position.toInt < t.toInt then .forward else .reverse
                  invert := s.motion.invert
                  speedRpm := BitVec.ofNat 16 (min rpm.toNat s.cfg.rpmMax)
                  active := true }
              profile := profile
              timers := { s.timers with period := period, periodAct := period, tcnt := 0 } }
            0x01#8 0x00#8 0#16 0#32)) ∧
  (∀ (addr : Byte) (rpm : U16) (data : Word) (s : State),
    acceptCommand (portWord 0x01#8 addr rpm data) s =
      if addr.toNat = 0 then exec (.goto data rpm) s else .next (illegal s 0x01#8))

/-- R171. `STOP` is a no-op at rest or at the target; otherwise it writes `target` only: one step ahead for a direct move,
the brake distance ahead for a ramped one, saturated to the `i32` range. -/
def Obligations.StopWritesTargetOnly : Prop :=
  (∀ s : State,
    if s.motion.active = false ∨ s.motion.position = s.motion.target then
      exec .stop s = .next (answered s 0x02#8 0x01#8 0#16 0#32)
    else
      ∃ target : Word,
        target.toInt =
          max (-2147483648) (min 2147483647
            (s.motion.position.toInt +
              (if s.motion.direction = .forward then 1 else -1) *
                (if s.profile.rampSteps.toNat = 1 then 1 else s.motion.speedRpm.toNat * 25 : Nat))) ∧
        exec .stop s =
          .next (answered { s with motion := { s.motion with target := target } } 0x02#8 0x00#8 0#16 0#32)) ∧
  OnlyPlainWord 0x02#8 .stop

/-- R173. `SETPOS p` is a no-op during a move; otherwise it writes `position` and `target`, both to `p`, and nothing else. -/
def Obligations.SetposMovesReference : Prop :=
  (∀ (p : Word) (s : State),
    exec (.setpos p) s =
      .next (if s.motion.active = true then answered s 0x04#8 0x01#8 0#16 0#32
        else answered { s with motion := { s.motion with position := p, target := p } } 0x04#8 0x00#8 0#16 0#32)) ∧
  (∀ (addr : Byte) (rpm : U16) (data : Word) (s : State),
    acceptCommand (portWord 0x04#8 addr rpm data) s =
      if addr.toNat = 0 ∧ rpm.toNat = 0 then exec (.setpos data) s else .next (illegal s 0x04#8))

/-- R174. `SETINV b` is a no-op during a move; otherwise it writes `invert` and nothing else, and `dir_pin` follows. -/
def Obligations.SetinvSetsInvert : Prop :=
  (∀ (b : Bool) (s : State),
    exec (.setinv b) s =
      .next (if s.motion.active = true then answered s 0x05#8 0x01#8 0#16 0#32
        else answered { s with motion := { s.motion with invert := b } } 0x05#8 0x00#8 0#16 0#32)) ∧
  (∀ (b : Bool) (s : State),
    dirPin { s with motion := { s.motion with invert := b } } = (decide (s.motion.direction = .forward) ^^ b)) ∧
  (∀ (addr : Byte) (rpm : U16) (data : Word) (s : State),
    acceptCommand (portWord 0x05#8 addr rpm data) s =
      if addr.toNat = 0 ∧ rpm.toNat = 0 ∧ data.toNat ≤ 1 then exec (.setinv (decide (data.toNat = 1))) s
      else .next (illegal s 0x05#8))

/-- Rests on R170 to R174, R234. In the ready-but-active window `READY` answers 1 while `GOTO`, `SETPOS`, `SETINV` and `STOP`
answer `NOOP` and change nothing. -/
def Obligations.ReadyActiveWindowAnswersNoop : Prop :=
  ∀ (t p : Word) (rpm : U16) (b : Bool) (s : State),
    s.motion.active = true → s.motion.position = s.motion.target →
    exec .ready s = .next (answered s 0x03#8 0x00#8 0#16 1#32) ∧
    exec (.goto t rpm) s = .next (answered s 0x01#8 0x01#8 0#16 0#32) ∧
    exec (.setpos p) s = .next (answered s 0x04#8 0x01#8 0#16 0#32) ∧
    exec (.setinv b) s = .next (answered s 0x05#8 0x01#8 0#16 0#32) ∧
    exec .stop s = .next (answered s 0x02#8 0x01#8 0#16 0#32)

/-- Rests on R171(d). A second `STOP` at the same position writes the same target again: the motion fields stay. -/
def Obligations.SecondStopSameTarget : Prop :=
  ∀ s t u : State, exec .stop s = .next t → exec .stop t = .next u → u.motion = t.motion

/-! ## The Register Link -/

/-- Rests on R38, R116 to R119, R123 and, for the fields that hold the frame and that the transaction does not use, on log 9 and
log 23. `RDREG` and `WRREG` start their transaction: the sequencer is about to send the first frame, with no attempt done;
nothing else changes, and no response is offered yet. -/
def Obligations.LinkCommandsStartTransactions : Prop :=
  (∀ (addr : BitVec 7) (s : State),
    exec (.rdreg addr) s =
      .next { s with
        link :=
          { phase := .rFlushSend, isWrite := false, addr := addr, data := 0, writeAttempts := 0, readAttempts := 0
            txFrame := readFrame s.cfg addr, rx := [], err := .timeout, waitUs := 0, status := .ok, value := 0 } }) ∧
  (∀ (addr : BitVec 7) (value : Word) (s : State),
    exec (.wrreg addr value) s =
      .next { s with
        link :=
          { phase := .wFlushSend, isWrite := true, addr := addr, data := value, writeAttempts := 0, readAttempts := 0
            txFrame := writeFrame s.cfg addr value, rx := [], err := .timeout, waitUs := 0, status := .ok, value := 0 } }) ∧
  (∀ (addr : Byte) (rpm : U16) (data : Word) (s : State),
    acceptCommand (portWord 0x10#8 addr rpm data) s =
      if addr.toNat ≤ 0x7F ∧ rpm.toNat = 0 ∧ data.toNat = 0 then exec (.rdreg (BitVec.ofNat 7 addr.toNat)) s
      else .next (illegal s 0x10#8)) ∧
  (∀ (addr : Byte) (rpm : U16) (data : Word) (s : State),
    acceptCommand (portWord 0x11#8 addr rpm data) s =
      if addr.toNat ≤ 0x7F ∧ rpm.toNat = 0 then exec (.wrreg (BitVec.ofNat 7 addr.toNat) data) s
      else .next (illegal s 0x11#8))

/-- Rests on R89, R112 to R114, R116, R117 and, in a phase that sends nothing and for a sync, node or checksum byte other than those
of R113 and R114, on log 8 (the model's choice: the frame goes out as given in every phase). A request frame throws away what the
receiver holds, goes into the transmit log byte for byte, and opens the receive call of its echo; nothing else changes. -/
def Obligations.RequestsGoOut : Prop :=
  (∀ (sync node : Byte) (addr : BitVec 7) (crc : Byte) (s : State),
    exec (.frameReadReq sync node addr crc) s =
      .next { s with
        rxHeld := []
        txLog := s.txLog ++ [[sync, node, BitVec.ofNat 8 addr.toNat, crc]]
        link := { s.link with phase := .rEcho, txFrame := [], rx := [], waitUs := 0 } }) ∧
  (∀ (sync node : Byte) (addr : BitVec 7) (value : Word) (crc : Byte) (s : State),
    exec (.frameWriteReq sync node addr value crc) s =
      .next { s with
        rxHeld := []
        txLog := s.txLog ++ [[sync, node, BitVec.ofNat 8 (addr.toNat + 0x80),
          byteOf value 3, byteOf value 2, byteOf value 1, byteOf value 0, crc]]
        link := { s.link with phase := .wEcho, txFrame := [], rx := [], waitUs := 0 } })

/-- Rests on R115 to R119, R123 and, with no attempt waiting, on log 8 and, for the response being offered by the step after, on
log 24. A reply ends the read attempt that waits for it. A valid one makes a `RDREG` return its value and a `WRREG` return `OK` when
it reads back the value written; a bad checksum is retried once; a failed read-back makes the write be tried once more, then
`VERIFY_FAILED`. With no attempt waiting the bytes are held. -/
def Obligations.ReplyEndsOrRetriesAttempt : Prop :=
  ∀ (h0 h1 h2 : Byte) (v : Word) (c : Byte) (s : State),
    let bytes := [h0, h1, h2, byteOf v 3, byteOf v 2, byteOf v 1, byteOf v 0]
    exec (.frameReply h0 h1 h2 v c) s =
      .next (
        if s.link.phase ≠ .rReply then { s with rxHeld := s.rxHeld ++ bytes ++ [c] }
        else if crc8 bytes = c then
          if s.link.isWrite = false then responding s s.link .ok v
          else if v = s.link.data then responding s s.link .ok 0
          else if s.link.writeAttempts = 0 then writingAgain s 1 s.link
          else responding s s.link .verifyFailed 0
        else if s.link.readAttempts = 0 then readingAgain s 1 .crc
        else if s.link.isWrite = false then responding s { s.link with err := .crc } .crc 0
        else if s.link.writeAttempts = 0 then writingAgain s 1 { s.link with err := .crc }
        else responding s { s.link with err := .crc } .verifyFailed 0)

/-- Rests on R38, R87, R118, R119, R123 and, for the word being offered by the step from RESPOND to IDLE, on log 24 and, for the
values of the dead fields, on log 23. A LINK step in RESPOND, of the event level or of the timed level, puts `respond(st, 0, v)` on
offer with the opcode of the transaction and leaves the sequencer idle; in IDLE it does nothing. -/
def Obligations.RespondOffersAndGoesIdle : Prop :=
  ∀ (s : State) (us : List Turn) (u : Turn), s.cfg.wf = true → u = .link ∨ u = .linkTimed →
    (s.link.phase = .respond →
      step (scheduled s (u :: us)) =
        .next (offered (scheduled s us) (if s.link.isWrite = true then 0x11#8 else 0x10#8) (statusCode s.link.status)
          s.link.value)) ∧
    (s.link.phase = .idle → step (scheduled s (u :: us)) = .next (scheduled s us))

/-- Rests on R116, R118 and, for an answer longer than its call, cut with its surplus dropped, on log 6 (the model's choice) and,
for the sequencer's dead fields, on log 23 and, for the LINK step of RESPOND, on log 24. With an idle sequencer, a free port and
WIRE's answers listed, presenting `RDREG addr` and letting LINK run gives exactly what the procedure returns on those answers: its
status and value in the response, its frames in the transmit log, its receive calls taken from the answers, and nothing else
changed. -/
def Obligations.ReadTransactionFollowsProcedure : Prop :=
  ∀ (s : State) (addr : BitVec 7) (ws : List Word64),
    s.cfg.wf = true → s.link = LinkState.idle → s.rsp = none →
    s.cmdQueue = portWord 0x10#8 (BitVec.ofNat 8 addr.toNat) 0 0 :: ws →
    (readRegister s.cfg addr 2 .timeout s.wire).calls ≤ s.wire.length →
    Host.Core.run core (1 + (readRegister s.cfg addr 2 .timeout s.wire).steps)
        (scheduled s (.host :: List.replicate (readRegister s.cfg addr 2 .timeout s.wire).steps .link)) =
      .next (afterTransaction s ws 0x10#8 (readRegister s.cfg addr 2 .timeout s.wire))

/-- Rests on R117, R119 and, for an answer longer than its call, cut with its surplus dropped, on log 6 (the model's choice) and,
for the sequencer's dead fields, on log 23 and, for the LINK step of RESPOND, on log 24. With an idle sequencer, a free port and
WIRE's answers listed, presenting `WRREG addr, value` and letting LINK run gives exactly what `write_register` returns on those
answers: its status in the response, its frames in the transmit log, its receive calls taken from the answers, and nothing else
changed. -/
def Obligations.WriteTransactionFollowsProcedure : Prop :=
  ∀ (s : State) (addr : BitVec 7) (v : Word) (ws : List Word64),
    s.cfg.wf = true → s.link = LinkState.idle → s.rsp = none →
    s.cmdQueue = portWord 0x11#8 (BitVec.ofNat 8 addr.toNat) 0 v :: ws →
    (writeRegister s.cfg addr v 2 s.wire).calls ≤ s.wire.length →
    Host.Core.run core (1 + (writeRegister s.cfg addr v 2 s.wire).steps)
        (scheduled s (.host :: List.replicate (writeRegister s.cfg addr v 2 s.wire).steps .link)) =
      .next (afterTransaction s ws 0x11#8 (writeRegister s.cfg addr v 2 s.wire))

/-- Rests on R112, R205. At the timed level a receive call takes the bytes that arrive, up to as many as it asks for, the rest
being held; it returns what it has once it has them all or its time is over, and waits otherwise. The verify delay ends when its
time is over, and the read-back begins. That WIRE answers once in every microsecond of a call is the model's choice (log 6),
and so are the counter that both waits share (log 16), a byte that arrives with no call open being held (log 25), and a byte of the
microsecond in which the time runs out being taken by the call (log 26). -/
def Obligations.TimedReceiveEndsByBytesOrTime : Prop :=
  (∀ (s : State) (us : List Turn) (a : List Byte) (as : List (List Byte)),
    s.cfg.wf = true → s.link.phase = .rEcho ∨ s.link.phase = .rReply ∨ s.link.phase = .wEcho →
    s.link.rx.length ≤ s.link.phase.expects → s.wire = a :: as →
    let n := s.link.phase.expects
    let got := (s.link.rx ++ a).take n
    let t := { s with
      turns := us, wire := as, rxHeld := s.rxHeld ++ (s.link.rx ++ a).drop n, link := { s.link with rx := got } }
    step (scheduled s (.linkTimed :: us)) =
      if got.length < n ∧ s.link.waitUs < s.cfg.rxTimeoutMs * 1000 then .next t else receiveDone got t) ∧
  (∀ (s : State) (us : List Turn) (b : Byte), s.cfg.wf = true →
    step (scheduled s (.rxByte b :: us)) =
      .next (if s.link.rx.length < s.link.phase.expects then
          { s with turns := us, link := { s.link with rx := s.link.rx ++ [b] } }
        else { s with turns := us, rxHeld := s.rxHeld ++ [b] })) ∧
  (∀ (s : State) (us : List Turn), s.cfg.wf = true → s.link.phase = .wDelay →
    step (scheduled s (.linkTimed :: us)) =
      .next (if s.link.waitUs < s.cfg.verifyDelayMs * 1000 then scheduled s us
        else
          { readingAgain s 0 .timeout with turns := us }))

/-- Rests on R116, R117, R120, R123, R201 and, for the LINK step of RESPOND, on log 24. Where the invariants hold, whatever WIRE
answers, an accepted `RDREG` has its response on offer after at most 7 LINK steps, the last one that of RESPOND, having sent 1 or 2
read requests and made at most 4 receive calls and no delay, and answers one of its own four statuses; an accepted `WRREG` has it
after at most 19 (2 write attempts of at most 9: the request, its echo, the delay, and 2 read attempts of 3; and RESPOND), having
sent 1 or 2 write requests and at most 4 read requests and made at most 10 receive calls and 2 delays, and answers `OK` or
`VERIFY_FAILED`. The sequencer is then idle. -/
def Obligations.TransactionsAreBounded : Prop :=
  (∀ (s : State) (addr : BitVec 7), Inv s → Accepts s (.rdreg addr) →
    ∃ (t u : State) (n : Nat) (frames : List Frame) (st : Status) (v : Word),
      step s = .next t ∧ n ≤ 7 ∧ Host.Core.run core n (scheduled t (List.replicate n .link)) = .next u ∧
      u.link.phase = .idle ∧ u.rsp = some (portWord 0x10#8 (statusCode st) 0#16 v) ∧
      (st = .ok ∨ st = .timeout ∨ st = .shortRead ∨ st = .crc) ∧ (st ≠ .ok → v = 0#32) ∧
      u.txLog = s.txLog ++ frames ∧ 1 ≤ frames.length ∧ frames.length ≤ 2 ∧ (∀ f ∈ frames, f = readFrame s.cfg addr) ∧
      (linkPhases n t).countP receives ≤ 4 ∧ (linkPhases n t).count .wDelay = 0 ∧
      (linkPhases n t).count .respond = 1 ∧ (linkPhases n t).getLast? = some .respond) ∧
  (∀ (s : State) (addr : BitVec 7) (value : Word), Inv s → Accepts s (.wrreg addr value) →
    ∃ (t u : State) (n : Nat) (frames : List Frame) (st : Status),
      step s = .next t ∧ n ≤ 19 ∧ Host.Core.run core n (scheduled t (List.replicate n .link)) = .next u ∧
      u.link.phase = .idle ∧ u.rsp = some (portWord 0x11#8 (statusCode st) 0#16 0#32) ∧
      (st = .ok ∨ st = .verifyFailed) ∧
      u.txLog = s.txLog ++ frames ∧ (∀ f ∈ frames, f = readFrame s.cfg addr ∨ f = writeFrame s.cfg addr value) ∧
      1 ≤ frames.count (writeFrame s.cfg addr value) ∧ frames.count (writeFrame s.cfg addr value) ≤ 2 ∧
      frames.count (readFrame s.cfg addr) ≤ 4 ∧
      (linkPhases n t).countP receives ≤ 10 ∧ (linkPhases n t).count .wDelay ≤ 2 ∧
      (linkPhases n t).count .respond = 1 ∧ (linkPhases n t).getLast? = some .respond)

/-- Rests on R71, R112, R120, R123, R241 and, for the counter both waits share, on log 16 and, for the LINK step of RESPOND, on
log 24. Where the invariants hold and a transaction runs, every LINK step of the event level brings it closer to its response; one
of the timed level never takes it further away, and brings it closer once the phase's time is over or where the phase waits for
nothing; no other move but reset touches that distance, which is at most 19, and at most 7 for a `RDREG`; it is 0 exactly in IDLE.
So a transaction ends however other moves fall between its steps. -/
def Obligations.LinkStepsComeCloserToResponse : Prop :=
  ∀ s : State, Inv s →
    linkRank s.link ≤ 19 ∧ (s.link.isWrite = false → linkRank s.link ≤ 7) ∧
    (linkRank s.link = 0 ↔ s.link.phase = .idle) ∧
    ∀ (us : List Turn) (u : Turn) (t : State), step (scheduled s (u :: us)) = .next t → linkRank s.link ≠ 0 →
      (u = .link → linkRank t.link < linkRank s.link) ∧
      (u = .linkTimed → linkRank t.link ≤ linkRank s.link) ∧
      (u = .linkTimed → waitLimit s.cfg s.link.phase ≤ s.link.waitUs → linkRank t.link < linkRank s.link) ∧
      (u ≠ .link → u ≠ .linkTimed → u ≠ .reset → linkRank t.link = linkRank s.link)

/-- Rests on R115, R122(a). The write request and the well-behaved reply carrying `v` are valid, and reading their bytes 3 to
6 gives `v` back, whatever the address and the parameters. -/
def Obligations.FramesRoundTrip : Prop :=
  ∀ (c : Config) (addr : BitVec 7) (v : Word),
    frameValid (writeRequest c addr v) = true ∧ frameValid (readRequest c addr) = true ∧
    frameValid (goodReply addr v) = true ∧
    writeRequest c addr v = writeFrame c addr v ∧ readRequest c addr = readFrame c addr ∧
    goodReply addr v =
      sealed [0x05#8, 0xFF#8, BitVec.ofNat 8 addr.toNat, byteOf v 3, byteOf v 2, byteOf v 1, byteOf v 0] ∧
    (∃ c', decodeReceived (goodReply addr v) = .ok (.frameReply 0x05 0xFF (BitVec.ofNat 8 addr.toNat) v c')) ∧
    (∃ a b c', decodeSent (writeRequest c addr v) = .ok (.frameWriteReq a b addr v c'))

/-- Rests on R122(b). Changing any one byte of a valid frame, of whatever length, makes it invalid. -/
def Obligations.SingleByteCorruptionDetected : Prop :=
  ∀ (f : Frame) (i : Nat) (b : Byte),
    frameValid f = true → i < f.length → f.getD i 0 ≠ b → frameValid (f.set i b) = false

/-- Rests on R65, R110; the start value 0 and the absence of a final inversion are what R110 marks as general knowledge. The
checksum is the procedure of R110 on plain numbers: it starts at 0, and for each message bit tests bit 7 against it, shifts left
within 8 bits and adds in 0x07; each byte enters bit 0 first. That is the order the bits travel in: it is the same register run
over the serial levels of the bytes, less their start and stop bits. -/
def Obligations.ChecksumTakesBitsInSerialOrder : Prop :=
  (∀ (crc : Byte) (m : Bool), (crcBit crc m).toNat = crcRegister crc.toNat m.toNat) ∧
  (∀ crc b : Byte, (crcByte crc b).toNat = crcRegisterByte crc.toNat b.toNat) ∧
  (∀ d : List Byte, (crc8 d).toNat = (d.map BitVec.toNat).foldl crcRegisterByte 0x00) ∧
  (∀ d : List Byte, crc8 d = (d.flatMap fun b => ((serialByte b).drop 1).take 8).foldl crcBit 0#8)

/-! ## Encoding -/

/-- Rests on R81 to R84, R89. Decoding the encoding of a well-formed instruction gives it back, with every operand. -/
def Obligations.DecodeOfEncode : Prop :=
  ∀ (c : Config) (i : Instr), i.wf c = true → decode c (encode i) = .ok i

/-- Rests on R81 to R85, R89. Bits have one meaning at the place they stand: what decodes to `i` is the encoding of `i`. -/
def Obligations.EncodeOfDecode : Prop :=
  ∀ (c : Config) (e : Encoded) (i : Instr), decode c e = .ok i → encode i = e

/-- Rests on R84 and spec/opcode_table.json. With the default parameters a word decodes to an instruction of a row exactly when
its masked bits are the row's match. -/
def Obligations.TableRowsMatchDecoder : Prop :=
  (∀ (w : Word64) (i : Instr), decodeCommand Config.default w = .ok i →
    ∃ row, tableRow i = some row ∧ w &&& row.2 = row.1) ∧
  (∀ (w : Word64) (j : Instr) (row : Word64 × Word64), tableRow j = some row → w &&& row.2 = row.1 →
    ∃ i, decodeCommand Config.default w = .ok i ∧ tableRow i = some row)

/-- Rests on R81 to R83, R89 and 95_test_vectors.md. A word or a frame of each family decodes to what it stands for. -/
def Obligations.WordsDecodeAsWritten : Prop :=
  decodeCommand Config.default 0x0A00000000000000#64 = .ok .getstat ∧
  decodeCommand Config.default 0x0100006400000A28#64 = .ok (.goto 2600 100) ∧
  decodeCommand Config.default 0x01000014FFFFFF9C#64 = .ok (.goto (BitVec.ofInt 32 (-100)) 20) ∧
  decodeCommand Config.default 0x1110000000071703#64 = .ok (.wrreg 0x10 0x00071703) ∧
  decodeSent [0x05#8, 0x00#8, 0x6C#8, 0xCA#8] = .ok (.frameReadReq 0x05 0x00 0x6C 0xCA) ∧
  decodeSent [0x05#8, 0x00#8, 0xEC#8, 0x10#8, 0x00#8, 0x00#8, 0x53#8, 0x9C#8] =
    .ok (.frameWriteReq 0x05 0x00 0x6C 0x10000053 0x9C) ∧
  decodeReceived [0x05#8, 0xFF#8, 0x6C#8, 0x10#8, 0x00#8, 0x00#8, 0x00#8, 0x29#8] =
    .ok (.frameReply 0x05 0xFF 0x6C 0x10000000 0x29)

/-- R84, R85, R86. A word is a command exactly when R84 allows it; any other is answered `ILLEGAL` with its own opcode byte and
changes nothing else, whatever the block is doing, also when a host's move presents it at a free port. -/
def Obligations.IllegalWordsAreAnswered : Prop :=
  ∀ (opcode addr : Byte) (rpm : U16) (data : Word) (s : State),
    (LegalWord s.cfg opcode addr rpm data ↔ ∃ i, decodeCommand s.cfg (portWord opcode addr rpm data) = .ok i) ∧
    (¬ LegalWord s.cfg opcode addr rpm data →
      acceptCommand (portWord opcode addr rpm data) s = .next (illegal s opcode)) ∧
    (∀ (us : List Turn) (ws : List Word64), ¬ LegalWord s.cfg opcode addr rpm data →
      s.cfg.wf = true → s.rsp = none → s.link.phase = .idle → s.cmdQueue = portWord opcode addr rpm data :: ws →
      step (scheduled s (.host :: us)) = .next (illegal { s with turns := us, cmdQueue := ws } opcode))

/-! ## Steps -/

/-- Rests on R80, R83 and, for what one host's move does, on log 4. A host's move with a free port and a legal word runs the decoded
command: the word leaves the queue, the move leaves the schedule, and the rest is the command's meaning. -/
def Obligations.StepRunsDecodedCommand : Prop :=
  ∀ (s : State) (us : List Turn) (w : Word64) (ws : List Word64) (i : Instr),
    s.cfg.wf = true → s.rsp = none → s.link.phase = .idle → s.cmdQueue = w :: ws → decodeCommand s.cfg w = .ok i →
    step (scheduled s (.host :: us)) = exec i { s with turns := us, cmdQueue := ws }

/-- Rests on R112 to R117, R123 and, for the field that holds the frame, on log 9 and, for an answer longer than its call (its
surplus dropped at the event level and held at the timed level), on log 6 (the model's choices). A LINK step in a sending phase,
of the event level or of the timed level, runs the frame that stands there; one that waits for a reply runs the reply that WIRE's
answer completes, with that answer gone from the list. -/
def Obligations.StepRunsDecodedFrame : Prop :=
  (∀ (s : State) (us : List Turn) (u : Turn) (i : Instr),
    s.cfg.wf = true → s.link.phase = .rFlushSend ∨ s.link.phase = .wFlushSend → u = .link ∨ u = .linkTimed →
    decode s.cfg (.sent s.link.txFrame) = .ok i →
    step (scheduled s (u :: us)) = exec i (scheduled s us)) ∧
  (∀ (s : State) (us : List Turn) (a : List Byte) (as : List (List Byte)) (i : Instr),
    s.cfg.wf = true → s.link.phase = .rReply → s.wire = a :: as →
    decode s.cfg (.received ((s.link.rx ++ a).take 8)) = .ok i →
    step (scheduled s (.link :: us)) = exec i { s with turns := us, wire := as }) ∧
  (∀ (s : State) (us : List Turn) (a : List Byte) (as : List (List Byte)) (i : Instr),
    s.cfg.wf = true → s.link.phase = .rReply → s.wire = a :: as → s.link.rx.length ≤ 8 →
    decode s.cfg (.received ((s.link.rx ++ a).take 8)) = .ok i →
    step (scheduled s (.linkTimed :: us)) =
      exec i { s with
        turns := us, wire := as, rxHeld := s.rxHeld ++ (s.link.rx ++ a).drop 8
        link := { s.link with rx := (s.link.rx ++ a).take 8 } })

/-- Rests on R80 to R83, R89 and, for where a number is placed, on log 3 and log 7. The instruction that the decoder reads from a
number of the opcode table is the one the next step runs once `withFetchWord` has placed it, and placing it leaves the motion,
profile and timer fields alone. -/
def Obligations.StepRunsPlacedWord : Prop :=
  ∀ (s : State) (nbits w : Nat) (i : Instr),
    s.cfg.wf = true → s.cfg.capacity = Config.default.capacity → decodeTableWord nbits w = some i →
    ∃ u, step (s.withFetchWord nbits w) = exec i u ∧ SameMotion s u ∧ u.turns = s.turns ∧ u.cmdQueue = s.cmdQueue ∧
      u.txLog = s.txLog ∧ u.pulseLog = s.pulseLog

/-- Rests on R80, R241, U13 and, for what one host's move does, on log 4. While a transaction runs, RESPOND included, the host's
word waits and nothing is dropped; an offered response is taken once, which changes nothing else, and with the sequencer idle the
port is free from then on. -/
def Obligations.PortWaitsAndHandsOver : Prop :=
  (∀ (s : State) (us : List Turn), s.cfg.wf = true → s.rsp = none → s.link.phase ≠ .idle →
    step (scheduled s (.host :: us)) = .next (scheduled s us)) ∧
  (∀ (s : State) (us : List Turn) (r : Word64), s.cfg.wf = true → s.rsp = some r →
    step (scheduled s (.host :: us)) = .next { s with turns := us, rsp := none, rspLog := s.rspLog ++ [r] }) ∧
  (∀ s : State, cmdReady s = true ↔ s.rsp = none ∧ s.link.phase = .idle)

/-- R43. The value of every field after reset, and of the two pins; link and logs are at rest. -/
def Obligations.ResetValues : Prop :=
  State.reset.motion.position.toInt = 0 ∧ State.reset.motion.target.toInt = 0 ∧
  State.reset.motion.direction = .forward ∧ State.reset.motion.invert = false ∧
  State.reset.motion.speedRpm.toNat = 0 ∧ State.reset.motion.active = false ∧
  State.reset.profile.rampSteps.toNat = 0 ∧ State.reset.profile.rampIndex.toNat = 0 ∧
  (∀ i, State.reset.profile.rampTable.read i = 0) ∧
  State.reset.timers.period.toNat = 65535 ∧ State.reset.timers.periodAct.toNat = 65535 ∧
  State.reset.timers.tcnt.toNat = 0 ∧ State.reset.timers.tickCnt.toNat = 0 ∧ State.reset.timers.stepHighCnt = 0 ∧
  State.reset.link.phase = .idle ∧ stepPin State.reset = false ∧ dirPin State.reset = true ∧
  State.reset.pulseLog = [] ∧ State.reset.txLog = []

/-- Rests on R230 and, for what lies outside the block, on log 17. Whatever runs, the reset event gives every field of the block
its reset value, without a response, and leaves the parameters and the agents around the block as they are. -/
def Obligations.ResetAbandonsEverything : Prop :=
  ∀ (s : State) (us : List Turn), s.cfg.wf = true →
    step (scheduled s (.reset :: us)) =
      .next { State.reset with
        cfg := s.cfg, cmdQueue := s.cmdQueue, wire := s.wire, wireCalls := s.wireCalls, turns := us }

/-- Rests on R28, R30, R31, R36, R37, R38, R43, R230 and, for the form of the ramp table, on log 12 and, for the sequencer's dead
fields, on log 23. The invariants of the motion, profile, timer and link fields hold at reset. -/
def Obligations.InvariantsHoldAtReset : Prop := Inv State.reset

/-- Rests on R30, R31 and, for the timers' ranges, on R28, R36, R37, R211, R213, R215 and, for the link, on R38, R80, R116 to R119,
R123 and, for the form of the ramp table and the sequencer's frame field and dead fields, on log 9, 12 and 23 and, for what RESPOND
is about to offer, on log 24 and, for the range of `tick_cnt` where `TICK_US` is 0 or above 2^32, on log 15 (the model's choices).
Every step from every state that meets the
invariants gives a state that meets them. -/
def Obligations.EveryStepKeepsInvariants : Prop :=
  ∀ s t : State, Inv s → step s = .next t → Inv t

/-- Rests on R31(c), R175, R200, R207. From every state that meets the invariants the step goes on: no fault and no refusal. -/
def Obligations.EveryStepGoesOn : Prop := ∀ s : State, Inv s → ∃ t, step s = .next t

/-- R30. INV1, `active = 0` implies `position = target`, holds at reset and is kept by every step from every state, with no other
premise; the converse does not always hold, as a short run shows. -/
def Obligations.RestAtTargetIsKept : Prop :=
  (State.reset.motion.active = false → State.reset.motion.position = State.reset.motion.target) ∧
  (∀ s t : State,
    (s.motion.active = false → s.motion.position = s.motion.target) → step s = .next t →
    (t.motion.active = false → t.motion.position = t.motion.target)) ∧
  (∃ (ws : List Word64) (us : List Turn) (t : State),
    Host.Core.run core us.length { State.reset with cmdQueue := ws, turns := us } = .next t ∧
    t.motion.position = t.motion.target ∧ t.motion.active = true)

/-! ## The Pulse Generator -/

/-- R140, with the pin of R27 and the log of R142. A PULSE event does nothing at the target; elsewhere it emits one pulse tagged
`dir_pin` and moves `position` one step in `direction`, exactly one where the step stays in the `i32` range, and nothing else
of the block changes but the step pin's counter. The alarm of the pulse timer raises it. -/
def Obligations.PulseStepsOrRests : Prop :=
  (∀ s : State, s.timers.tcnt.toNat + 1 ≥ s.timers.periodAct.toNat → (microsecond s).turns.head? = some .pulse) ∧
  ∀ (s : State) (us : List Turn), s.cfg.wf = true →
    if s.motion.position = s.motion.target then step (scheduled s (.pulse :: us)) = .next (scheduled s us)
    else
      ∃ p : Word,
        step (scheduled s (.pulse :: us)) =
          .next { s with
            turns := us
            motion := { s.motion with position := p }
            timers := { s.timers with stepHighCnt := s.cfg.stepHighUs }
            pulseLog := s.pulseLog ++ [decide (s.motion.direction = .forward) ^^ s.motion.invert] } ∧
        (s.motion.direction = .forward → s.motion.position.toInt < 2147483647 →
          p.toInt = s.motion.position.toInt + 1) ∧
        (s.motion.direction = .reverse → -2147483648 < s.motion.position.toInt →
          p.toInt = s.motion.position.toInt - 1)

/-- Rests on R21, R31(d), R140(b). Where the invariants hold, a pulse never wraps: it takes exactly one off `remaining`. -/
def Obligations.PulseTakesOneOffRemaining : Prop :=
  ∀ s : State, MotionInv s → s.motion.position ≠ s.motion.target →
    remaining (pulse s) + 1 = remaining s ∧
    ((pulse s).motion.position.toInt = s.motion.position.toInt + directionSign s.motion.direction)

/-- Rests on R145. Where the invariants hold, `remaining` PULSE events bring `position` to the target with exactly that many
pulses, all with the same tag, and change nothing else of the block but the step pin's counter. -/
def Obligations.PulsesReachTarget : Prop :=
  ∀ s : State, Inv s →
    ∃ h, Host.Core.run core (remaining s) (scheduled s (List.replicate (remaining s) .pulse)) =
      .next { s with
        turns := []
        motion := { s.motion with position := s.motion.target }
        timers := { s.timers with stepHighCnt := h }
        pulseLog := s.pulseLog ++ List.replicate (remaining s) (dirPin s) }

/-- Rests on R28, R141. After a pulse the step pin is high for `STEP_HIGH_US` microseconds and low from then on, which is shorter
than any period that runs or is programmed; where the pulse comes right after its alarm, which leaves `tcnt` at 0, the pin is low
again at every later alarm. -/
def Obligations.StepPinHighForItsWidth : Prop :=
  ∀ s : State, Inv s → s.motion.position ≠ s.motion.target →
    (∀ k, decide (0 < ((countMicro s.cfg)^[k] (pulse s).timers).stepHighCnt) = decide (k < s.cfg.stepHighUs)) ∧
    s.cfg.stepHighUs < s.timers.periodAct.toNat ∧ s.cfg.stepHighUs < s.timers.period.toNat ∧
    (s.timers.tcnt.toNat = 0 → ∀ k, alarmDue ((countMicro s.cfg)^[k] (pulse s).timers) = true →
      ((countMicro s.cfg)^[k] (pulse s).timers).stepHighCnt = 0)

/-! ## The Velocity Profile Engine -/

/-- R152. `period_of` is non-increasing over all speeds; for a well-formed configuration and `rpm <= RPM_MAX`, `sps(rpm) <=
100000` and `10 <= period_of(rpm) <= 65535`. -/
def Obligations.PeriodBoundsAndOrder : Prop :=
  (∀ (c : Config) (a b : Nat), a ≤ b → periodOf c b ≤ periodOf c a) ∧
  (∀ (c : Config) (rpm : Nat), c.wf = true → rpm ≤ c.rpmMax →
    1 ≤ sps c rpm ∧ sps c rpm ≤ 100000 ∧ 10 ≤ periodOf c rpm ∧ periodOf c rpm ≤ 65535)

/-- R161. The ramp of a move is monotone over its whole length: speeds from `RPM_FLOOR` up to the peak, and the periods `plan`
leaves in the table down from that of the floor to that of the peak. -/
def Obligations.RampIsMonotone : Prop :=
  ∀ (c : Config) (rpm : Nat), c.wf = true → c.rpmDirect ≤ rpm → rpm ≤ c.rpmMax →
    let n := rampStepsOf c rpm
    rampRpm c rpm n 0 = c.rpmFloor ∧ rampRpm c rpm n (n - 1) = rpm ∧
    (∀ i j, i ≤ j → j < n →
      rampRpm c rpm n i ≤ rampRpm c rpm n j ∧
      periodOf c (rampRpm c rpm n j) ≤ periodOf c (rampRpm c rpm n i)) ∧
    ∀ (s : State) (d : Nat), s.cfg = c → s.profile.rampTable.wf = true →
      let p := (plan d rpm s).profile
      p.rampSteps.toNat = n ∧ (p.rampTable.read 0).toNat = periodOf c c.rpmFloor ∧
      (p.rampTable.read (n - 1)).toNat = periodOf c rpm ∧
      ∀ i j, i ≤ j → j < n → (p.rampTable.read j).toNat ≤ (p.rampTable.read i).toNat

/-- Rests on R158, R159, R160, R215 and, for a `TICK_US` of 0, where every microsecond raises a TICK, on log 15 (the model's
choice). The tick timer raises a TICK event, which does what the branch of its phase name says and nothing else: nothing at rest;
a direct move completes on arrival; a ramped one goes a level up, holds the peak period, goes a level down, holds the floor
period, or completes. -/
def Obligations.TickFollowsItsPhase : Prop :=
  (∀ s : State, s.timers.tickCnt.toNat + 1 ≥ s.cfg.tickUs → Turn.tick ∈ (microsecond s).turns) ∧
  ∀ (s : State) (us : List Turn), Inv s →
    step (scheduled s (.tick :: us)) =
      .next (
        match movePhase s with
        | .idle => scheduled s us
        | .direct => if remaining s = 0 then completed (scheduled s us) else scheduled s us
        | .rampUp => atLevel (scheduled s us) (s.profile.rampIndex + 1)
        | .cruise => withPeriod (scheduled s us) (BitVec.ofNat 16 (periodOf s.cfg s.motion.speedRpm.toNat))
        | .brake => atLevel (scheduled s us) (s.profile.rampIndex - 1)
        | .floorHold => withPeriod (scheduled s us) (s.profile.rampTable.read 0)
        | .stopping => completed (scheduled s us))

/-- Rests on R160. The phase names: each is exactly its condition, so they are disjoint and cover every state. -/
def Obligations.PhaseNamesCoverMoves : Prop :=
  ∀ s : State, (s.motion.active = true → 1 ≤ s.profile.rampSteps.toNat) →
    let rem := remaining s
    let brake := s.motion.speedRpm.toNat * 25
    let index := s.profile.rampIndex.toNat
    let steps := s.profile.rampSteps.toNat
    let ramped := s.motion.active = true ∧ 2 ≤ steps
    (movePhase s = .idle ↔ s.motion.active = false) ∧
    (movePhase s = .direct ↔ s.motion.active = true ∧ steps = 1) ∧
    (movePhase s = .rampUp ↔ ramped ∧ rem > brake ∧ index + 1 < steps) ∧
    (movePhase s = .cruise ↔ ramped ∧ rem > brake ∧ steps ≤ index + 1) ∧
    (movePhase s = .brake ↔ ramped ∧ rem ≤ brake ∧ index > 0) ∧
    (movePhase s = .floorHold ↔ ramped ∧ rem ≤ brake ∧ index = 0 ∧ rem > 0) ∧
    (movePhase s = .stopping ↔ ramped ∧ rem = 0 ∧ index = 0)

/-- Rests on R158(b), R159, R163. Once `position = target`, exactly `ramp_index + 1` TICK events complete the move: it is active
after any fewer, and then at rest with its profile zeroed, no pulse emitted meanwhile. -/
def Obligations.TicksCompleteArrivedMove : Prop :=
  ∀ s : State, Inv s → s.motion.active = true → s.motion.position = s.motion.target →
    (∀ k, k ≤ s.profile.rampIndex.toNat →
      ∃ t, Host.Core.run core k (scheduled s (List.replicate k .tick)) = .next t ∧ t.motion = s.motion ∧
        t.profile.rampIndex.toNat + k = s.profile.rampIndex.toNat) ∧
    (let n := s.profile.rampIndex.toNat + 1
     ∃ t, Host.Core.run core n (scheduled s (List.replicate n .tick)) = .next t ∧
      t.motion = { s.motion with active := false, speedRpm := 0 } ∧
      t.profile = { s.profile with rampSteps := 0, rampIndex := 0 } ∧
      t.pulseLog = s.pulseLog ∧ SameLink s t)

/-- Rests on R158(a), R242. A ramped move that is within its brake distance at index 0 stays at the floor speed: a TICK leaves the
index at 0 and programs `period_of(RPM_FLOOR)`, until the target is reached. -/
def Obligations.ShortMoveStaysAtFloor : Prop :=
  ∀ (s : State) (us : List Turn), Inv s → s.motion.active = true → s.profile.rampSteps.toNat ≠ 1 →
    s.profile.rampIndex.toNat = 0 → remaining s ≤ s.motion.speedRpm.toNat * 25 → remaining s ≠ 0 →
    ∃ t, step (scheduled s (.tick :: us)) = .next t ∧ t.profile = s.profile ∧ t.motion = s.motion ∧
      t.timers.period.toNat = periodOf s.cfg s.cfg.rpmFloor

/-! ## The timers -/

/-- Rests on R28, R38, R112, R211, R215 and, for the one wait counter of the link, on log 16 and, for PULSE before TICK, on R206
and the schedule of log 2 and, for a `TICK_US` of 0, which acts as 1, or above 2^32, where `tick_cnt` wraps with no TICK, on log
15. One microsecond: the pulse timer counts or raises an alarm and reloads, the tick timer counts or wraps, PULSE comes before
TICK, the link's wait counter counts in a receive call and in the delay, and every other field stays: `period`, the motion, the
profile, the rest of the link, the bytes held, the response on offer, the logs, the parameters, the host and WIRE. -/
def Obligations.MicrosecondCountsTimers : Prop :=
  ∀ (s : State) (us : List Turn), s.cfg.wf = true →
    ∃ t, step (scheduled s (.micro :: us)) = .next t ∧ MicroPassed s us t

/-- Rests on R211, R212. Counting on from `tcnt`, the alarm comes in the microsecond that completes `period_act`, in none before
it, and only then is the programmed period taken over. -/
def Obligations.AlarmsComeWhenPeriodCompletes : Prop :=
  ∀ (c : Config) (t : Timers), t.tcnt.toNat < t.periodAct.toNat →
    (∀ k, t.tcnt.toNat + k < t.periodAct.toNat →
      alarmDue ((countMicro c)^[k] t) = decide (t.tcnt.toNat + k + 1 = t.periodAct.toNat) ∧
      ((countMicro c)^[k] t).periodAct = t.periodAct) ∧
    ((countMicro c)^[t.periodAct.toNat - t.tcnt.toNat] t).tcnt.toNat = 0 ∧
    ((countMicro c)^[t.periodAct.toNat - t.tcnt.toNat] t).periodAct = t.period

/-- Rests on R37, R215. Counting on from `tick_cnt`, the tick timer wraps in the microsecond that completes `TICK_US` and in none
before it; the counter then stands at 0. `TICK_US` from 1 to 2^32 is the range a `u32` counter can meet (log 15). -/
def Obligations.TicksComeWhenIntervalCompletes : Prop :=
  ∀ (c : Config) (t : Timers), t.tickCnt.toNat < c.tickUs → c.tickUs ≤ 2 ^ 32 →
    (∀ k, t.tickCnt.toNat + k < c.tickUs →
      tickDue c ((countMicro c)^[k] t) = decide (t.tickCnt.toNat + k + 1 = c.tickUs)) ∧
    ((countMicro c)^[c.tickUs - t.tickCnt.toNat] t).tickCnt.toNat = 0

/-- Rests on R28, R38, R112, R206, R211, R215 and, for the schedule, on log 2 and, for the one wait counter of the link, on log 16
and, for a `TICK_US` of 0 or above 2^32, on log 15. With nothing scheduled one microsecond of the timed level passes, and what
happens in it is ordered PULSE, TICK, the host's move, LINK; the counters count as in any microsecond and every other field stays.
-/
def Obligations.EventsOfOneMicrosecondInOrder : Prop :=
  ∀ s : State, s.cfg.wf = true → s.turns = [] →
    ∃ t, step s = .next t ∧ MicroPassed s [.host, .linkTimed] t

/-! ## Who writes what -/

/-- Rests on R41, R118, R119, R121 and, for a byte that arrives while no transaction runs, on log 25. A LINK step or an arriving
byte changes no motion, profile or timer field and emits no pulse; PULSE and TICK change no link field, send nothing and answer
nothing; neither touches the parameters. -/
def Obligations.LinkAndMotionAreIsolated : Prop :=
  ∀ (s t : State) (u : Turn) (us : List Turn), step (scheduled s (u :: us)) = .next t →
    ((u = .link ∨ u = .linkTimed ∨ ∃ b, u = .rxByte b) →
      SameMotion s t ∧ t.pulseLog = s.pulseLog ∧ t.cmdQueue = s.cmdQueue ∧ t.rspLog = s.rspLog ∧ t.cfg = s.cfg) ∧
    ((u = .pulse ∨ u = .tick) → SameLink s t ∧ t.rsp = s.rsp ∧ SameOutside (scheduled s us) t)

/-- Rests on R121. What PULSE and TICK do does not depend on the link's fields, and what a LINK step does, of the event level or of
the timed level, does not depend on the motion, profile and timer fields: changing the other unit's fields first changes the
outcome in those fields only. -/
def Obligations.LinkAndMotionDoNotSeeEachOther : Prop :=
  (∀ (s : State) (l : LinkState) (held : List Byte) (tx : List Frame),
    pulse (withLink l held tx s) = withLink l held tx (pulse s) ∧
    tick (withLink l held tx s) = mapNext (withLink l held tx) (tick s)) ∧
  (∀ (s : State) (m : MotionState) (p : VelocityProfile) (ti : Timers),
    linkStep (withMotion m p ti s) = mapNext (withMotion m p ti) (linkStep s) ∧
    linkTimed (withMotion m p ti s) = mapNext (withMotion m p ti) (linkTimed s))

/-- R176. `target` changes only by an accepted `GOTO`, `STOP` or `SETPOS`, and `direction` only by an accepted `GOTO`, or by
reset. -/
def Obligations.TargetAndDirectionWriters : Prop :=
  ∀ s t : State, step s = .next t → (∀ us, s.turns ≠ .reset :: us) →
    (t.motion.target ≠ s.motion.target →
      (∃ a r, Accepts s (.goto a r)) ∨ Accepts s .stop ∨ ∃ p, Accepts s (.setpos p)) ∧
    (t.motion.direction ≠ s.motion.direction → ∃ a r, Accepts s (.goto a r))

/-- Rests on R21, R41, R216. `position` changes only by a PULSE event, which steps it by one, or by an accepted `SETPOS` while no
move is active, or by reset; the pulse log grows only by PULSE. -/
def Obligations.PositionWriters : Prop :=
  ∀ s t : State, step s = .next t → (∀ us, s.turns ≠ .reset :: us) →
    (t.motion.position ≠ s.motion.position →
      (∃ us, s.turns = .pulse :: us ∧
        (t.motion.position = s.motion.position + 1 ∨ t.motion.position = s.motion.position - 1)) ∨
      (s.motion.active = false ∧ ∃ p, Accepts s (.setpos p) ∧ t.motion.position = p)) ∧
    (t.pulseLog ≠ s.pulseLog → ∃ us, s.turns = .pulse :: us)

/-- Rests on R27, R240. The direction pin changes only inside an accepted `GOTO` or `SETINV`, at rest, or by reset: it is stable
throughout a move. -/
def Obligations.DirPinChangesOnlyAtRest : Prop :=
  ∀ s t : State, step s = .next t → (∀ us, s.turns ≠ .reset :: us) → dirPin t ≠ dirPin s →
    s.motion.active = false ∧ ((∃ a r, Accepts s (.goto a r)) ∨ ∃ b, Accepts s (.setinv b))
end

