-- ==== Sys2Proof/Laws/Decode.lean ====
section
/-! SUPPORT. The fields of an assembled command word, the bytes of a register value, and everything the port's decoder can
do. -/

namespace Sys2Proof.Machine

@[simp] theorem opcodeField_commandWord (a b : Byte) (c : U16) (d : Word) : opcodeField (commandWord a b c d) = a := by
  apply BitVec.eq_of_getLsbD_eq
  intro i hi
  simp only [opcodeField, commandWord, BitVec.getLsbD_extractLsb', BitVec.getLsbD_append]
  simp [hi, show ¬ 56 + i < 32 by omega, show ¬ 56 + i - 32 < 16 by omega, show ¬ 56 + i - 32 - 16 < 8 by omega,
    show 56 + i - 32 - 16 - 8 = i by omega]

@[simp] theorem addrField_commandWord (a b : Byte) (c : U16) (d : Word) : addrField (commandWord a b c d) = b := by
  apply BitVec.eq_of_getLsbD_eq
  intro i hi
  simp only [addrField, commandWord, BitVec.getLsbD_extractLsb', BitVec.getLsbD_append]
  simp [hi, show ¬ 48 + i < 32 by omega, show ¬ 48 + i - 32 < 16 by omega, show 48 + i - 32 - 16 = i by omega]

@[simp] theorem rpmField_commandWord (a b : Byte) (c : U16) (d : Word) : rpmField (commandWord a b c d) = c := by
  apply BitVec.eq_of_getLsbD_eq
  intro i hi
  simp only [rpmField, commandWord, BitVec.getLsbD_extractLsb', BitVec.getLsbD_append]
  simp [hi, show ¬ 32 + i < 32 by omega]

@[simp] theorem dataField_commandWord (a b : Byte) (c : U16) (d : Word) : dataField (commandWord a b c d) = d := by
  apply BitVec.eq_of_getLsbD_eq
  intro i hi
  simp only [dataField, commandWord, BitVec.getLsbD_extractLsb', BitVec.getLsbD_append]
  simp [hi]

/-- A word is assembled from its own fields (R81). -/
theorem commandWord_fields (w : Word64) :
    commandWord (opcodeField w) (addrField w) (rpmField w) (dataField w) = w := by
  apply BitVec.eq_of_getLsbD_eq
  intro i hi
  simp only [commandWord, opcodeField, addrField, rpmField, dataField, BitVec.getLsbD_extractLsb', BitVec.getLsbD_append]
  by_cases h1 : i < 32
  · simp [h1]
  · by_cases h2 : i - 32 < 16
    · simp [h1, h2, show 32 + (i - 32) = i by omega]
    · by_cases h3 : i - 32 - 16 < 8
      · simp [h1, h2, h3, show 48 + (i - 32 - 16) = i by omega]
      · simp [h1, h2, h3, show 56 + (i - 32 - 16 - 8) = i by omega, show i - 32 - 16 - 8 < 8 by omega]

/-- The bytes of a value make the value again (R64). -/
theorem bytesWord_extract (v : Word) :
    bytesWord (v.extractLsb' 24 8) (v.extractLsb' 16 8) (v.extractLsb' 8 8) (v.extractLsb' 0 8) = v := by
  apply BitVec.eq_of_getLsbD_eq
  intro i hi
  simp only [bytesWord, BitVec.getLsbD_append, BitVec.getLsbD_extractLsb']
  by_cases h1 : i < 8
  · simp [h1]
  · by_cases h2 : i - 8 < 8
    · simp [h1, h2, show 8 + (i - 8) = i by omega]
    · by_cases h3 : i - 8 - 8 < 8
      · simp [h1, h2, h3, show 16 + (i - 8 - 8) = i by omega]
      · simp [h1, h2, h3, show 24 + (i - 8 - 8 - 8) = i by omega, show i - 8 - 8 - 8 < 8 by omega]

/-- A value of four bytes has these bytes (R64). -/
theorem wordBytes_bytesWord (a b c d : Byte) : wordBytes (bytesWord a b c d) = [a, b, c, d] := by
  have ha : (bytesWord a b c d).extractLsb' 24 8 = a := by
    apply BitVec.eq_of_getLsbD_eq
    intro i hi
    simp only [bytesWord, BitVec.getLsbD_append, BitVec.getLsbD_extractLsb']
    simp only [hi, show ¬ 24 + i < 8 by omega, show ¬ 24 + i - 8 < 8 by omega, show ¬ 24 + i - 8 - 8 < 8 by omega,
      show 24 + i - 8 - 8 - 8 = i by omega, if_false, decide_true, Bool.true_and]
  have hb : (bytesWord a b c d).extractLsb' 16 8 = b := by
    apply BitVec.eq_of_getLsbD_eq
    intro i hi
    simp only [bytesWord, BitVec.getLsbD_append, BitVec.getLsbD_extractLsb']
    simp only [hi, show ¬ 16 + i < 8 by omega, show ¬ 16 + i - 8 < 8 by omega, show 16 + i - 8 - 8 = i by omega,
      if_false, if_true, decide_true, Bool.true_and]
  have hc : (bytesWord a b c d).extractLsb' 8 8 = c := by
    apply BitVec.eq_of_getLsbD_eq
    intro i hi
    simp only [bytesWord, BitVec.getLsbD_append, BitVec.getLsbD_extractLsb']
    simp only [hi, show ¬ 8 + i < 8 by omega, show 8 + i - 8 = i by omega, if_false, if_true, decide_true, Bool.true_and]
  have hd : (bytesWord a b c d).extractLsb' 0 8 = d := by
    apply BitVec.eq_of_getLsbD_eq
    intro i hi
    simp only [bytesWord, BitVec.getLsbD_append, BitVec.getLsbD_extractLsb']
    simp only [hi, Nat.zero_add, if_true, decide_true, Bool.true_and]
  rw [wordBytes, ha, hb, hc, hd]

end Sys2Proof.Machine

namespace Sys2Proof

open Machine

/-- Everything the port's decoder can do: the decoder of the word's opcode, or a refusal of an opcode of R85 (R83). -/
theorem decodeCommand_cases (c : Config) (w : Word64) :
    (opcodeField w = opNop ∧ decodeCommand c w = decodePlain w .nop) ∨
    (opcodeField w = opGoto ∧ decodeCommand c w = decodeGoto w) ∨
    (opcodeField w = opStop ∧ decodeCommand c w = decodePlain w .stop) ∨
    (opcodeField w = opReady ∧ decodeCommand c w = decodePlain w .ready) ∨
    (opcodeField w = opSetpos ∧ decodeCommand c w = decodeSetpos w) ∨
    (opcodeField w = opSetinv ∧ decodeCommand c w = decodeSetinv w) ∨
    (opcodeField w = opGetpos ∧ decodeCommand c w = decodePlain w .getpos) ∨
    (opcodeField w = opGettgt ∧ decodeCommand c w = decodePlain w .gettgt) ∨
    (opcodeField w = opGetstat ∧ decodeCommand c w = decodePlain w .getstat) ∨
    (opcodeField w = opGetprof ∧ decodeCommand c w = decodePlain w .getprof) ∨
    (opcodeField w = opGetramp ∧ decodeCommand c w = decodeGetramp c w) ∨
    (opcodeField w = opRdreg ∧ decodeCommand c w = decodeRdreg w) ∨
    (opcodeField w = opWrreg ∧ decodeCommand c w = decodeWrreg w) ∨
    (opcodeField w ∉ [opNop, opGoto, opStop, opReady, opSetpos, opSetinv, opGetpos, opGettgt, opGetstat, opGetprof,
        opGetramp, opRdreg, opWrreg] ∧ decodeCommand c w = .error .undefinedOpcode) := by
  unfold decodeCommand
  by_cases h0 : opcodeField w = opNop
  · exact .inl ⟨h0, if_pos h0⟩
  rw [if_neg h0]; right
  by_cases h1 : opcodeField w = opGoto
  · exact .inl ⟨h1, if_pos h1⟩
  rw [if_neg h1]; right
  by_cases h2 : opcodeField w = opStop
  · exact .inl ⟨h2, if_pos h2⟩
  rw [if_neg h2]; right
  by_cases h3 : opcodeField w = opReady
  · exact .inl ⟨h3, if_pos h3⟩
  rw [if_neg h3]; right
  by_cases h4 : opcodeField w = opSetpos
  · exact .inl ⟨h4, if_pos h4⟩
  rw [if_neg h4]; right
  by_cases h5 : opcodeField w = opSetinv
  · exact .inl ⟨h5, if_pos h5⟩
  rw [if_neg h5]; right
  by_cases h6 : opcodeField w = opGetpos
  · exact .inl ⟨h6, if_pos h6⟩
  rw [if_neg h6]; right
  by_cases h7 : opcodeField w = opGettgt
  · exact .inl ⟨h7, if_pos h7⟩
  rw [if_neg h7]; right
  by_cases h8 : opcodeField w = opGetstat
  · exact .inl ⟨h8, if_pos h8⟩
  rw [if_neg h8]; right
  by_cases h9 : opcodeField w = opGetprof
  · exact .inl ⟨h9, if_pos h9⟩
  rw [if_neg h9]; right
  by_cases h10 : opcodeField w = opGetramp
  · exact .inl ⟨h10, if_pos h10⟩
  rw [if_neg h10]; right
  by_cases h11 : opcodeField w = opRdreg
  · exact .inl ⟨h11, if_pos h11⟩
  rw [if_neg h11]; right
  by_cases h12 : opcodeField w = opWrreg
  · exact .inl ⟨h12, if_pos h12⟩
  rw [if_neg h12]; right
  exact ⟨by simp only [List.mem_cons, List.not_mem_nil, or_false, not_or]; exact ⟨h0, h1, h2, h3, h4, h5, h6, h7, h8, h9, h10, h11, h12⟩, rfl⟩

end Sys2Proof
end

