-- ==== Sys2Proof/Laws/Ramp.lean ====
section
/-! SUPPORT. The laws of the ramp table: read after write, writes elsewhere, and the canonical form every write keeps. -/

namespace Sys2Proof.Machine

@[simp] theorem RampTable.read_nil (i : Nat) : RampTable.read [] i = 0 := rfl

theorem RampTable.read_of_lt_above {t : RampTable} {b i : Nat} (h : RampTable.wfAbove b t = true) (hi : i < b) :
    RampTable.read t i = 0 := by
  induction t generalizing b with
  | nil => rfl
  | cons c t ih =>
    obtain ⟨j, v⟩ := c
    simp only [RampTable.wfAbove, Bool.and_eq_true, decide_eq_true_eq] at h
    have hne : i ≠ j := by omega
    simp only [RampTable.read, if_neg hne]
    exact ih h.2 (by omega)

/-- A canonical table stays canonical above any smaller bound. -/
theorem RampTable.wfAbove_mono {t : RampTable} {b b' : Nat} (h : RampTable.wfAbove b t = true) (hb : b' ≤ b) :
    RampTable.wfAbove b' t = true := by
  cases t with
  | nil => rfl
  | cons c t =>
    obtain ⟨j, v⟩ := c
    simp only [RampTable.wfAbove, Bool.and_eq_true, decide_eq_true_eq] at h ⊢
    exact ⟨⟨by omega, h.1.2⟩, h.2⟩

theorem RampTable.write_wfAbove {t : RampTable} {b i : Nat} (v : U16) (h : RampTable.wfAbove b t = true) (hi : b ≤ i) :
    RampTable.wfAbove b (t.write i v) = true := by
  induction t generalizing b with
  | nil =>
    by_cases hv : v = 0
    · simp [RampTable.write, hv, RampTable.wfAbove]
    · simp only [RampTable.write, if_neg hv, RampTable.wfAbove, Bool.and_eq_true, decide_eq_true_eq]
      exact ⟨⟨hi, hv⟩, trivial⟩
  | cons c t ih =>
    obtain ⟨j, w⟩ := c
    simp only [RampTable.wfAbove, Bool.and_eq_true, decide_eq_true_eq] at h
    obtain ⟨⟨hj, hw⟩, ht⟩ := h
    simp only [RampTable.write]
    split
    · split
      · simp only [RampTable.wfAbove, Bool.and_eq_true, decide_eq_true_eq]
        exact ⟨⟨hj, hw⟩, ht⟩
      · rename_i hlt hv
        simp only [RampTable.wfAbove, Bool.and_eq_true, decide_eq_true_eq]
        exact ⟨⟨hi, hv⟩, ⟨by omega, hw⟩, ht⟩
    · split
      · split
        · exact RampTable.wfAbove_mono ht (by omega)
        · rename_i hv
          simp only [RampTable.wfAbove, Bool.and_eq_true, decide_eq_true_eq]
          exact ⟨⟨hi, hv⟩, RampTable.wfAbove_mono ht (by omega)⟩
      · simp only [RampTable.wfAbove, Bool.and_eq_true, decide_eq_true_eq]
        exact ⟨⟨hj, hw⟩, ih ht (by omega)⟩

/-- Every write keeps the canonical form. -/
theorem RampTable.write_wf {t : RampTable} (i : Nat) (v : U16) (h : t.wf = true) : (t.write i v).wf = true :=
  RampTable.write_wfAbove v h (Nat.zero_le i)

theorem RampTable.read_write_above {t : RampTable} {b : Nat} (i k : Nat) (v : U16) (h : RampTable.wfAbove b t = true) :
    (t.write i v).read k = if k = i then v else t.read k := by
  induction t generalizing b with
  | nil =>
    by_cases hv : v = 0
    · simp [RampTable.write, hv, RampTable.read]
    · simp only [RampTable.write, if_neg hv, RampTable.read]
  | cons c t ih =>
    obtain ⟨j, w⟩ := c
    simp only [RampTable.wfAbove, Bool.and_eq_true, decide_eq_true_eq] at h
    obtain ⟨⟨_, hw⟩, ht⟩ := h
    simp only [RampTable.write]
    by_cases hlt : i < j
    · rw [if_pos hlt]
      by_cases hv : v = 0
      · rw [if_pos hv]
        by_cases hk : k = i
        · rw [if_pos hk, hv, hk]
          have : i ≠ j := by omega
          simp only [RampTable.read, if_neg this]
          exact RampTable.read_of_lt_above ht (by omega)
        · rw [if_neg hk]
      · rw [if_neg hv]
        rfl
    · rw [if_neg hlt]
      by_cases hij : i = j
      · subst hij
        rw [if_pos rfl]
        by_cases hv : v = 0
        · rw [if_pos hv]
          by_cases hk : k = i
          · rw [if_pos hk, hk, hv]
            exact RampTable.read_of_lt_above ht (by omega)
          · simp [RampTable.read, hk]
        · rw [if_neg hv]
          by_cases hk : k = i <;> simp [RampTable.read, hk]
      · rw [if_neg hij]
        by_cases hk : k = j
        · subst hk
          have : ¬ k = i := fun e => hij e.symm
          simp [RampTable.read, this]
        · simp only [RampTable.read, if_neg hk]
          exact ih ht

/-- Reading any entry after a write: the written value at its index, the old one elsewhere. -/
theorem RampTable.read_write {t : RampTable} (i k : Nat) (v : U16) (h : t.wf = true) :
    (t.write i v).read k = if k = i then v else t.read k :=
  RampTable.read_write_above i k v h

/-- The loop of `plan` keeps the canonical form. -/
theorem fillRamp_wf (c : Config) (rpm n k : Nat) {t : RampTable} (h : t.wf = true) :
    (fillRamp c rpm n k t).wf = true := by
  induction k with
  | zero => exact h
  | succ k ih => exact RampTable.write_wf k _ ih

/-- What the loop of `plan` leaves in the table: the planned periods below `k`, the old entries from `k` on (R156). -/
theorem read_fillRamp (c : Config) (rpm n k i : Nat) {t : RampTable} (h : t.wf = true) :
    (fillRamp c rpm n k t).read i = if i < k then periodWord c (rampRpm c rpm n i) else t.read i := by
  induction k with
  | zero => rfl
  | succ k ih =>
    simp only [fillRamp, RampTable.read_write _ _ _ (fillRamp_wf c rpm n k h), ih]
    by_cases hik : i = k
    · subst hik
      simp
    · have : (i < k + 1) = (i < k) := propext ⟨fun _ => by omega, fun _ => by omega⟩
      simp [hik, this]

/-- The reset table is canonical. -/
theorem VelocityProfile.reset_wf : VelocityProfile.reset.rampTable.wf = true := rfl

end Sys2Proof.Machine
end

