-- ==== Sys2Proof/Laws/State.lean ====
section
/-! SUPPORT. One lemma per field per named update of the state, so that no later proof unfolds a record update. -/

namespace Sys2Proof.Machine

/-! `State.answer` writes the response on offer only (R87). -/
@[simp] theorem answer_cfg (op : Byte) (st : Status) (aux : U16) (v : Word) (s : State) : (s.answer op st aux v).cfg = s.cfg := rfl
@[simp] theorem answer_motion (op : Byte) (st : Status) (aux : U16) (v : Word) (s : State) : (s.answer op st aux v).motion = s.motion := rfl
@[simp] theorem answer_profile (op : Byte) (st : Status) (aux : U16) (v : Word) (s : State) : (s.answer op st aux v).profile = s.profile := rfl
@[simp] theorem answer_timers (op : Byte) (st : Status) (aux : U16) (v : Word) (s : State) : (s.answer op st aux v).timers = s.timers := rfl
@[simp] theorem answer_link (op : Byte) (st : Status) (aux : U16) (v : Word) (s : State) : (s.answer op st aux v).link = s.link := rfl
@[simp] theorem answer_rxHeld (op : Byte) (st : Status) (aux : U16) (v : Word) (s : State) : (s.answer op st aux v).rxHeld = s.rxHeld := rfl
@[simp] theorem answer_rsp (op : Byte) (st : Status) (aux : U16) (v : Word) (s : State) : (s.answer op st aux v).rsp = some (responseWord op st aux v) := rfl
@[simp] theorem answer_pulseLog (op : Byte) (st : Status) (aux : U16) (v : Word) (s : State) : (s.answer op st aux v).pulseLog = s.pulseLog := rfl
@[simp] theorem answer_txLog (op : Byte) (st : Status) (aux : U16) (v : Word) (s : State) : (s.answer op st aux v).txLog = s.txLog := rfl
@[simp] theorem answer_rspLog (op : Byte) (st : Status) (aux : U16) (v : Word) (s : State) : (s.answer op st aux v).rspLog = s.rspLog := rfl
@[simp] theorem answer_cmdQueue (op : Byte) (st : Status) (aux : U16) (v : Word) (s : State) : (s.answer op st aux v).cmdQueue = s.cmdQueue := rfl
@[simp] theorem answer_wire (op : Byte) (st : Status) (aux : U16) (v : Word) (s : State) : (s.answer op st aux v).wire = s.wire := rfl
@[simp] theorem answer_wireCalls (op : Byte) (st : Status) (aux : U16) (v : Word) (s : State) : (s.answer op st aux v).wireCalls = s.wireCalls := rfl
@[simp] theorem answer_turns (op : Byte) (st : Status) (aux : U16) (v : Word) (s : State) : (s.answer op st aux v).turns = s.turns := rfl

/-! `answerIllegal` writes the response on offer only (R86). -/
@[simp] theorem answerIllegal_cfg (w : Word64) (s : State) : (answerIllegal w s).cfg = s.cfg := rfl
@[simp] theorem answerIllegal_motion (w : Word64) (s : State) : (answerIllegal w s).motion = s.motion := rfl
@[simp] theorem answerIllegal_profile (w : Word64) (s : State) : (answerIllegal w s).profile = s.profile := rfl
@[simp] theorem answerIllegal_timers (w : Word64) (s : State) : (answerIllegal w s).timers = s.timers := rfl
@[simp] theorem answerIllegal_link (w : Word64) (s : State) : (answerIllegal w s).link = s.link := rfl
@[simp] theorem answerIllegal_rxHeld (w : Word64) (s : State) : (answerIllegal w s).rxHeld = s.rxHeld := rfl
@[simp] theorem answerIllegal_rsp (w : Word64) (s : State) : (answerIllegal w s).rsp = some (responseWord (opcodeField w) .illegal 0 0) := rfl
@[simp] theorem answerIllegal_pulseLog (w : Word64) (s : State) : (answerIllegal w s).pulseLog = s.pulseLog := rfl
@[simp] theorem answerIllegal_txLog (w : Word64) (s : State) : (answerIllegal w s).txLog = s.txLog := rfl
@[simp] theorem answerIllegal_rspLog (w : Word64) (s : State) : (answerIllegal w s).rspLog = s.rspLog := rfl
@[simp] theorem answerIllegal_cmdQueue (w : Word64) (s : State) : (answerIllegal w s).cmdQueue = s.cmdQueue := rfl
@[simp] theorem answerIllegal_wire (w : Word64) (s : State) : (answerIllegal w s).wire = s.wire := rfl
@[simp] theorem answerIllegal_wireCalls (w : Word64) (s : State) : (answerIllegal w s).wireCalls = s.wireCalls := rfl
@[simp] theorem answerIllegal_turns (w : Word64) (s : State) : (answerIllegal w s).turns = s.turns := rfl

/-! `uartFlush` empties the receiver (R112). -/
@[simp] theorem uartFlush_cfg (s : State) : (uartFlush s).cfg = s.cfg := rfl
@[simp] theorem uartFlush_motion (s : State) : (uartFlush s).motion = s.motion := rfl
@[simp] theorem uartFlush_profile (s : State) : (uartFlush s).profile = s.profile := rfl
@[simp] theorem uartFlush_timers (s : State) : (uartFlush s).timers = s.timers := rfl
@[simp] theorem uartFlush_link (s : State) : (uartFlush s).link = s.link := rfl
@[simp] theorem uartFlush_rxHeld (s : State) : (uartFlush s).rxHeld = [] := rfl
@[simp] theorem uartFlush_rsp (s : State) : (uartFlush s).rsp = s.rsp := rfl
@[simp] theorem uartFlush_pulseLog (s : State) : (uartFlush s).pulseLog = s.pulseLog := rfl
@[simp] theorem uartFlush_txLog (s : State) : (uartFlush s).txLog = s.txLog := rfl
@[simp] theorem uartFlush_rspLog (s : State) : (uartFlush s).rspLog = s.rspLog := rfl
@[simp] theorem uartFlush_cmdQueue (s : State) : (uartFlush s).cmdQueue = s.cmdQueue := rfl
@[simp] theorem uartFlush_wire (s : State) : (uartFlush s).wire = s.wire := rfl
@[simp] theorem uartFlush_wireCalls (s : State) : (uartFlush s).wireCalls = s.wireCalls := rfl
@[simp] theorem uartFlush_turns (s : State) : (uartFlush s).turns = s.turns := rfl

/-! `uartSend` appends to the transmit log (R112). -/
@[simp] theorem uartSend_cfg (f : Frame) (s : State) : (uartSend f s).cfg = s.cfg := rfl
@[simp] theorem uartSend_motion (f : Frame) (s : State) : (uartSend f s).motion = s.motion := rfl
@[simp] theorem uartSend_profile (f : Frame) (s : State) : (uartSend f s).profile = s.profile := rfl
@[simp] theorem uartSend_timers (f : Frame) (s : State) : (uartSend f s).timers = s.timers := rfl
@[simp] theorem uartSend_link (f : Frame) (s : State) : (uartSend f s).link = s.link := rfl
@[simp] theorem uartSend_rxHeld (f : Frame) (s : State) : (uartSend f s).rxHeld = s.rxHeld := rfl
@[simp] theorem uartSend_rsp (f : Frame) (s : State) : (uartSend f s).rsp = s.rsp := rfl
@[simp] theorem uartSend_pulseLog (f : Frame) (s : State) : (uartSend f s).pulseLog = s.pulseLog := rfl
@[simp] theorem uartSend_txLog (f : Frame) (s : State) : (uartSend f s).txLog = s.txLog ++ [f] := rfl
@[simp] theorem uartSend_rspLog (f : Frame) (s : State) : (uartSend f s).rspLog = s.rspLog := rfl
@[simp] theorem uartSend_cmdQueue (f : Frame) (s : State) : (uartSend f s).cmdQueue = s.cmdQueue := rfl
@[simp] theorem uartSend_wire (f : Frame) (s : State) : (uartSend f s).wire = s.wire := rfl
@[simp] theorem uartSend_wireCalls (f : Frame) (s : State) : (uartSend f s).wireCalls = s.wireCalls := rfl
@[simp] theorem uartSend_turns (f : Frame) (s : State) : (uartSend f s).turns = s.turns := rfl

/-! `openReceive` moves held bytes into the open call (R112). -/
@[simp] theorem openReceive_cfg (p : LinkPhase) (s : State) : (openReceive p s).cfg = s.cfg := rfl
@[simp] theorem openReceive_motion (p : LinkPhase) (s : State) : (openReceive p s).motion = s.motion := rfl
@[simp] theorem openReceive_profile (p : LinkPhase) (s : State) : (openReceive p s).profile = s.profile := rfl
@[simp] theorem openReceive_timers (p : LinkPhase) (s : State) : (openReceive p s).timers = s.timers := rfl
@[simp] theorem openReceive_link (p : LinkPhase) (s : State) : (openReceive p s).link = { s.link with phase := p, txFrame := [], rx := s.rxHeld.take p.expects, waitUs := 0 } := rfl
@[simp] theorem openReceive_rxHeld (p : LinkPhase) (s : State) : (openReceive p s).rxHeld = s.rxHeld.drop p.expects := rfl
@[simp] theorem openReceive_rsp (p : LinkPhase) (s : State) : (openReceive p s).rsp = s.rsp := rfl
@[simp] theorem openReceive_pulseLog (p : LinkPhase) (s : State) : (openReceive p s).pulseLog = s.pulseLog := rfl
@[simp] theorem openReceive_txLog (p : LinkPhase) (s : State) : (openReceive p s).txLog = s.txLog := rfl
@[simp] theorem openReceive_rspLog (p : LinkPhase) (s : State) : (openReceive p s).rspLog = s.rspLog := rfl
@[simp] theorem openReceive_cmdQueue (p : LinkPhase) (s : State) : (openReceive p s).cmdQueue = s.cmdQueue := rfl
@[simp] theorem openReceive_wire (p : LinkPhase) (s : State) : (openReceive p s).wire = s.wire := rfl
@[simp] theorem openReceive_wireCalls (p : LinkPhase) (s : State) : (openReceive p s).wireCalls = s.wireCalls := rfl
@[simp] theorem openReceive_turns (p : LinkPhase) (s : State) : (openReceive p s).turns = s.turns := rfl

/-! `beginReadAttempt` writes link fields only (R116). -/
@[simp] theorem beginReadAttempt_cfg (s : State) : (beginReadAttempt s).cfg = s.cfg := rfl
@[simp] theorem beginReadAttempt_motion (s : State) : (beginReadAttempt s).motion = s.motion := rfl
@[simp] theorem beginReadAttempt_profile (s : State) : (beginReadAttempt s).profile = s.profile := rfl
@[simp] theorem beginReadAttempt_timers (s : State) : (beginReadAttempt s).timers = s.timers := rfl
@[simp] theorem beginReadAttempt_link (s : State) : (beginReadAttempt s).link = { s.link with phase := .rFlushSend, txFrame := readRequest s.cfg s.link.addr, rx := [], waitUs := 0 } := rfl
@[simp] theorem beginReadAttempt_rxHeld (s : State) : (beginReadAttempt s).rxHeld = s.rxHeld := rfl
@[simp] theorem beginReadAttempt_rsp (s : State) : (beginReadAttempt s).rsp = s.rsp := rfl
@[simp] theorem beginReadAttempt_pulseLog (s : State) : (beginReadAttempt s).pulseLog = s.pulseLog := rfl
@[simp] theorem beginReadAttempt_txLog (s : State) : (beginReadAttempt s).txLog = s.txLog := rfl
@[simp] theorem beginReadAttempt_rspLog (s : State) : (beginReadAttempt s).rspLog = s.rspLog := rfl
@[simp] theorem beginReadAttempt_cmdQueue (s : State) : (beginReadAttempt s).cmdQueue = s.cmdQueue := rfl
@[simp] theorem beginReadAttempt_wire (s : State) : (beginReadAttempt s).wire = s.wire := rfl
@[simp] theorem beginReadAttempt_wireCalls (s : State) : (beginReadAttempt s).wireCalls = s.wireCalls := rfl
@[simp] theorem beginReadAttempt_turns (s : State) : (beginReadAttempt s).turns = s.turns := rfl

/-! `beginRead` writes link fields only (R116). -/
@[simp] theorem beginRead_cfg (s : State) : (beginRead s).cfg = s.cfg := rfl
@[simp] theorem beginRead_motion (s : State) : (beginRead s).motion = s.motion := rfl
@[simp] theorem beginRead_profile (s : State) : (beginRead s).profile = s.profile := rfl
@[simp] theorem beginRead_timers (s : State) : (beginRead s).timers = s.timers := rfl
@[simp] theorem beginRead_link (s : State) : (beginRead s).link = { s.link with phase := .rFlushSend, readAttempts := 0, err := .timeout, txFrame := readRequest s.cfg s.link.addr, rx := [], waitUs := 0 } := rfl
@[simp] theorem beginRead_rxHeld (s : State) : (beginRead s).rxHeld = s.rxHeld := rfl
@[simp] theorem beginRead_rsp (s : State) : (beginRead s).rsp = s.rsp := rfl
@[simp] theorem beginRead_pulseLog (s : State) : (beginRead s).pulseLog = s.pulseLog := rfl
@[simp] theorem beginRead_txLog (s : State) : (beginRead s).txLog = s.txLog := rfl
@[simp] theorem beginRead_rspLog (s : State) : (beginRead s).rspLog = s.rspLog := rfl
@[simp] theorem beginRead_cmdQueue (s : State) : (beginRead s).cmdQueue = s.cmdQueue := rfl
@[simp] theorem beginRead_wire (s : State) : (beginRead s).wire = s.wire := rfl
@[simp] theorem beginRead_wireCalls (s : State) : (beginRead s).wireCalls = s.wireCalls := rfl
@[simp] theorem beginRead_turns (s : State) : (beginRead s).turns = s.turns := rfl

/-! `beginWriteAttempt` writes link fields only (R117). -/
@[simp] theorem beginWriteAttempt_cfg (s : State) : (beginWriteAttempt s).cfg = s.cfg := rfl
@[simp] theorem beginWriteAttempt_motion (s : State) : (beginWriteAttempt s).motion = s.motion := rfl
@[simp] theorem beginWriteAttempt_profile (s : State) : (beginWriteAttempt s).profile = s.profile := rfl
@[simp] theorem beginWriteAttempt_timers (s : State) : (beginWriteAttempt s).timers = s.timers := rfl
@[simp] theorem beginWriteAttempt_link (s : State) : (beginWriteAttempt s).link = { s.link with phase := .wFlushSend, txFrame := writeRequest s.cfg s.link.addr s.link.data, rx := [], waitUs := 0 } := rfl
@[simp] theorem beginWriteAttempt_rxHeld (s : State) : (beginWriteAttempt s).rxHeld = s.rxHeld := rfl
@[simp] theorem beginWriteAttempt_rsp (s : State) : (beginWriteAttempt s).rsp = s.rsp := rfl
@[simp] theorem beginWriteAttempt_pulseLog (s : State) : (beginWriteAttempt s).pulseLog = s.pulseLog := rfl
@[simp] theorem beginWriteAttempt_txLog (s : State) : (beginWriteAttempt s).txLog = s.txLog := rfl
@[simp] theorem beginWriteAttempt_rspLog (s : State) : (beginWriteAttempt s).rspLog = s.rspLog := rfl
@[simp] theorem beginWriteAttempt_cmdQueue (s : State) : (beginWriteAttempt s).cmdQueue = s.cmdQueue := rfl
@[simp] theorem beginWriteAttempt_wire (s : State) : (beginWriteAttempt s).wire = s.wire := rfl
@[simp] theorem beginWriteAttempt_wireCalls (s : State) : (beginWriteAttempt s).wireCalls = s.wireCalls := rfl
@[simp] theorem beginWriteAttempt_turns (s : State) : (beginWriteAttempt s).turns = s.turns := rfl

/-! `enterRespond` keeps what the procedure returned and moves on to RESPOND (R123). -/
@[simp] theorem enterRespond_cfg (st : Status) (v : Word) (s : State) : (enterRespond st v s).cfg = s.cfg := rfl
@[simp] theorem enterRespond_motion (st : Status) (v : Word) (s : State) : (enterRespond st v s).motion = s.motion := rfl
@[simp] theorem enterRespond_profile (st : Status) (v : Word) (s : State) : (enterRespond st v s).profile = s.profile := rfl
@[simp] theorem enterRespond_timers (st : Status) (v : Word) (s : State) : (enterRespond st v s).timers = s.timers := rfl
@[simp] theorem enterRespond_link (st : Status) (v : Word) (s : State) : (enterRespond st v s).link = { s.link with phase := .respond, status := st, value := v, rx := [], waitUs := 0 } := rfl
@[simp] theorem enterRespond_rxHeld (st : Status) (v : Word) (s : State) : (enterRespond st v s).rxHeld = s.rxHeld := rfl
@[simp] theorem enterRespond_rsp (st : Status) (v : Word) (s : State) : (enterRespond st v s).rsp = s.rsp := rfl
@[simp] theorem enterRespond_pulseLog (st : Status) (v : Word) (s : State) : (enterRespond st v s).pulseLog = s.pulseLog := rfl
@[simp] theorem enterRespond_txLog (st : Status) (v : Word) (s : State) : (enterRespond st v s).txLog = s.txLog := rfl
@[simp] theorem enterRespond_rspLog (st : Status) (v : Word) (s : State) : (enterRespond st v s).rspLog = s.rspLog := rfl
@[simp] theorem enterRespond_cmdQueue (st : Status) (v : Word) (s : State) : (enterRespond st v s).cmdQueue = s.cmdQueue := rfl
@[simp] theorem enterRespond_wire (st : Status) (v : Word) (s : State) : (enterRespond st v s).wire = s.wire := rfl
@[simp] theorem enterRespond_wireCalls (st : Status) (v : Word) (s : State) : (enterRespond st v s).wireCalls = s.wireCalls := rfl
@[simp] theorem enterRespond_turns (st : Status) (v : Word) (s : State) : (enterRespond st v s).turns = s.turns := rfl

/-! `offerResponse` offers the response and leaves the sequencer idle (R123). -/
@[simp] theorem offerResponse_cfg (s : State) : (offerResponse s).cfg = s.cfg := rfl
@[simp] theorem offerResponse_motion (s : State) : (offerResponse s).motion = s.motion := rfl
@[simp] theorem offerResponse_profile (s : State) : (offerResponse s).profile = s.profile := rfl
@[simp] theorem offerResponse_timers (s : State) : (offerResponse s).timers = s.timers := rfl
@[simp] theorem offerResponse_link (s : State) : (offerResponse s).link = LinkState.idle := rfl
@[simp] theorem offerResponse_rxHeld (s : State) : (offerResponse s).rxHeld = s.rxHeld := rfl
@[simp] theorem offerResponse_rsp (s : State) : (offerResponse s).rsp = some (responseWord (if s.link.isWrite then opWrreg else opRdreg) s.link.status 0 s.link.value) := rfl
@[simp] theorem offerResponse_pulseLog (s : State) : (offerResponse s).pulseLog = s.pulseLog := rfl
@[simp] theorem offerResponse_txLog (s : State) : (offerResponse s).txLog = s.txLog := rfl
@[simp] theorem offerResponse_rspLog (s : State) : (offerResponse s).rspLog = s.rspLog := rfl
@[simp] theorem offerResponse_cmdQueue (s : State) : (offerResponse s).cmdQueue = s.cmdQueue := rfl
@[simp] theorem offerResponse_wire (s : State) : (offerResponse s).wire = s.wire := rfl
@[simp] theorem offerResponse_wireCalls (s : State) : (offerResponse s).wireCalls = s.wireCalls := rfl
@[simp] theorem offerResponse_turns (s : State) : (offerResponse s).turns = s.turns := rfl

/-! `writeEchoDone` moves on to the delay (R117). -/
@[simp] theorem writeEchoDone_cfg (s : State) : (writeEchoDone s).cfg = s.cfg := rfl
@[simp] theorem writeEchoDone_motion (s : State) : (writeEchoDone s).motion = s.motion := rfl
@[simp] theorem writeEchoDone_profile (s : State) : (writeEchoDone s).profile = s.profile := rfl
@[simp] theorem writeEchoDone_timers (s : State) : (writeEchoDone s).timers = s.timers := rfl
@[simp] theorem writeEchoDone_link (s : State) : (writeEchoDone s).link = { s.link with phase := .wDelay, rx := [], waitUs := 0 } := rfl
@[simp] theorem writeEchoDone_rxHeld (s : State) : (writeEchoDone s).rxHeld = s.rxHeld := rfl
@[simp] theorem writeEchoDone_rsp (s : State) : (writeEchoDone s).rsp = s.rsp := rfl
@[simp] theorem writeEchoDone_pulseLog (s : State) : (writeEchoDone s).pulseLog = s.pulseLog := rfl
@[simp] theorem writeEchoDone_txLog (s : State) : (writeEchoDone s).txLog = s.txLog := rfl
@[simp] theorem writeEchoDone_rspLog (s : State) : (writeEchoDone s).rspLog = s.rspLog := rfl
@[simp] theorem writeEchoDone_cmdQueue (s : State) : (writeEchoDone s).cmdQueue = s.cmdQueue := rfl
@[simp] theorem writeEchoDone_wire (s : State) : (writeEchoDone s).wire = s.wire := rfl
@[simp] theorem writeEchoDone_wireCalls (s : State) : (writeEchoDone s).wireCalls = s.wireCalls := rfl
@[simp] theorem writeEchoDone_turns (s : State) : (writeEchoDone s).turns = s.turns := rfl

/-! `complete` writes the four fields of R159. -/
@[simp] theorem complete_cfg (s : State) : (complete s).cfg = s.cfg := rfl
@[simp] theorem complete_motion (s : State) : (complete s).motion = { s.motion with active := false, speedRpm := 0 } := rfl
@[simp] theorem complete_profile (s : State) : (complete s).profile = { s.profile with rampSteps := 0, rampIndex := 0 } := rfl
@[simp] theorem complete_timers (s : State) : (complete s).timers = s.timers := rfl
@[simp] theorem complete_link (s : State) : (complete s).link = s.link := rfl
@[simp] theorem complete_rxHeld (s : State) : (complete s).rxHeld = s.rxHeld := rfl
@[simp] theorem complete_rsp (s : State) : (complete s).rsp = s.rsp := rfl
@[simp] theorem complete_pulseLog (s : State) : (complete s).pulseLog = s.pulseLog := rfl
@[simp] theorem complete_txLog (s : State) : (complete s).txLog = s.txLog := rfl
@[simp] theorem complete_rspLog (s : State) : (complete s).rspLog = s.rspLog := rfl
@[simp] theorem complete_cmdQueue (s : State) : (complete s).cmdQueue = s.cmdQueue := rfl
@[simp] theorem complete_wire (s : State) : (complete s).wire = s.wire := rfl
@[simp] theorem complete_wireCalls (s : State) : (complete s).wireCalls = s.wireCalls := rfl
@[simp] theorem complete_turns (s : State) : (complete s).turns = s.turns := rfl

/-! `holdPeak` writes `period` only (R158). -/
@[simp] theorem holdPeak_cfg (s : State) : (holdPeak s).cfg = s.cfg := rfl
@[simp] theorem holdPeak_motion (s : State) : (holdPeak s).motion = s.motion := rfl
@[simp] theorem holdPeak_profile (s : State) : (holdPeak s).profile = s.profile := rfl
@[simp] theorem holdPeak_timers (s : State) : (holdPeak s).timers = { s.timers with period := periodWord s.cfg s.motion.speedRpm.toNat } := rfl
@[simp] theorem holdPeak_link (s : State) : (holdPeak s).link = s.link := rfl
@[simp] theorem holdPeak_rxHeld (s : State) : (holdPeak s).rxHeld = s.rxHeld := rfl
@[simp] theorem holdPeak_rsp (s : State) : (holdPeak s).rsp = s.rsp := rfl
@[simp] theorem holdPeak_pulseLog (s : State) : (holdPeak s).pulseLog = s.pulseLog := rfl
@[simp] theorem holdPeak_txLog (s : State) : (holdPeak s).txLog = s.txLog := rfl
@[simp] theorem holdPeak_rspLog (s : State) : (holdPeak s).rspLog = s.rspLog := rfl
@[simp] theorem holdPeak_cmdQueue (s : State) : (holdPeak s).cmdQueue = s.cmdQueue := rfl
@[simp] theorem holdPeak_wire (s : State) : (holdPeak s).wire = s.wire := rfl
@[simp] theorem holdPeak_wireCalls (s : State) : (holdPeak s).wireCalls = s.wireCalls := rfl
@[simp] theorem holdPeak_turns (s : State) : (holdPeak s).turns = s.turns := rfl

/-! `restartPulseTimer` writes the two hidden timer fields (R213). -/
@[simp] theorem restartPulseTimer_cfg (s : State) : (restartPulseTimer s).cfg = s.cfg := rfl
@[simp] theorem restartPulseTimer_motion (s : State) : (restartPulseTimer s).motion = s.motion := rfl
@[simp] theorem restartPulseTimer_profile (s : State) : (restartPulseTimer s).profile = s.profile := rfl
@[simp] theorem restartPulseTimer_timers (s : State) : (restartPulseTimer s).timers = { s.timers with tcnt := 0, periodAct := s.timers.period } := rfl
@[simp] theorem restartPulseTimer_link (s : State) : (restartPulseTimer s).link = s.link := rfl
@[simp] theorem restartPulseTimer_rxHeld (s : State) : (restartPulseTimer s).rxHeld = s.rxHeld := rfl
@[simp] theorem restartPulseTimer_rsp (s : State) : (restartPulseTimer s).rsp = s.rsp := rfl
@[simp] theorem restartPulseTimer_pulseLog (s : State) : (restartPulseTimer s).pulseLog = s.pulseLog := rfl
@[simp] theorem restartPulseTimer_txLog (s : State) : (restartPulseTimer s).txLog = s.txLog := rfl
@[simp] theorem restartPulseTimer_rspLog (s : State) : (restartPulseTimer s).rspLog = s.rspLog := rfl
@[simp] theorem restartPulseTimer_cmdQueue (s : State) : (restartPulseTimer s).cmdQueue = s.cmdQueue := rfl
@[simp] theorem restartPulseTimer_wire (s : State) : (restartPulseTimer s).wire = s.wire := rfl
@[simp] theorem restartPulseTimer_wireCalls (s : State) : (restartPulseTimer s).wireCalls = s.wireCalls := rfl
@[simp] theorem restartPulseTimer_turns (s : State) : (restartPulseTimer s).turns = s.turns := rfl

/-! `microsecond` counts the timers and schedules what they raise (R206, R211, R215). -/
@[simp] theorem microsecond_cfg (s : State) : (microsecond s).cfg = s.cfg := rfl
@[simp] theorem microsecond_motion (s : State) : (microsecond s).motion = s.motion := rfl
@[simp] theorem microsecond_profile (s : State) : (microsecond s).profile = s.profile := rfl
@[simp] theorem microsecond_timers (s : State) : (microsecond s).timers = countMicro s.cfg s.timers := rfl
@[simp] theorem microsecond_link (s : State) : (microsecond s).link = countWait s.link := rfl
@[simp] theorem microsecond_rxHeld (s : State) : (microsecond s).rxHeld = s.rxHeld := rfl
@[simp] theorem microsecond_rsp (s : State) : (microsecond s).rsp = s.rsp := rfl
@[simp] theorem microsecond_pulseLog (s : State) : (microsecond s).pulseLog = s.pulseLog := rfl
@[simp] theorem microsecond_txLog (s : State) : (microsecond s).txLog = s.txLog := rfl
@[simp] theorem microsecond_rspLog (s : State) : (microsecond s).rspLog = s.rspLog := rfl
@[simp] theorem microsecond_cmdQueue (s : State) : (microsecond s).cmdQueue = s.cmdQueue := rfl
@[simp] theorem microsecond_wire (s : State) : (microsecond s).wire = s.wire := rfl
@[simp] theorem microsecond_wireCalls (s : State) : (microsecond s).wireCalls = s.wireCalls := rfl
@[simp] theorem microsecond_turns (s : State) : (microsecond s).turns = raised s ++ s.turns := rfl

/-! `takeResponse` frees the port (R80). -/
@[simp] theorem takeResponse_cfg (r : Word64) (s : State) : (takeResponse r s).cfg = s.cfg := rfl
@[simp] theorem takeResponse_motion (r : Word64) (s : State) : (takeResponse r s).motion = s.motion := rfl
@[simp] theorem takeResponse_profile (r : Word64) (s : State) : (takeResponse r s).profile = s.profile := rfl
@[simp] theorem takeResponse_timers (r : Word64) (s : State) : (takeResponse r s).timers = s.timers := rfl
@[simp] theorem takeResponse_link (r : Word64) (s : State) : (takeResponse r s).link = s.link := rfl
@[simp] theorem takeResponse_rxHeld (r : Word64) (s : State) : (takeResponse r s).rxHeld = s.rxHeld := rfl
@[simp] theorem takeResponse_rsp (r : Word64) (s : State) : (takeResponse r s).rsp = none := rfl
@[simp] theorem takeResponse_pulseLog (r : Word64) (s : State) : (takeResponse r s).pulseLog = s.pulseLog := rfl
@[simp] theorem takeResponse_txLog (r : Word64) (s : State) : (takeResponse r s).txLog = s.txLog := rfl
@[simp] theorem takeResponse_rspLog (r : Word64) (s : State) : (takeResponse r s).rspLog = s.rspLog ++ [r] := rfl
@[simp] theorem takeResponse_cmdQueue (r : Word64) (s : State) : (takeResponse r s).cmdQueue = s.cmdQueue := rfl
@[simp] theorem takeResponse_wire (r : Word64) (s : State) : (takeResponse r s).wire = s.wire := rfl
@[simp] theorem takeResponse_wireCalls (r : Word64) (s : State) : (takeResponse r s).wireCalls = s.wireCalls := rfl
@[simp] theorem takeResponse_turns (r : Word64) (s : State) : (takeResponse r s).turns = s.turns := rfl

/-! `resetBlock` gives every field of the block its reset value (R43, R230). -/
@[simp] theorem resetBlock_cfg (s : State) : (resetBlock s).cfg = s.cfg := rfl
@[simp] theorem resetBlock_motion (s : State) : (resetBlock s).motion = MotionState.reset := rfl
@[simp] theorem resetBlock_profile (s : State) : (resetBlock s).profile = VelocityProfile.reset := rfl
@[simp] theorem resetBlock_timers (s : State) : (resetBlock s).timers = Timers.reset := rfl
@[simp] theorem resetBlock_link (s : State) : (resetBlock s).link = LinkState.idle := rfl
@[simp] theorem resetBlock_rxHeld (s : State) : (resetBlock s).rxHeld = [] := rfl
@[simp] theorem resetBlock_rsp (s : State) : (resetBlock s).rsp = none := rfl
@[simp] theorem resetBlock_pulseLog (s : State) : (resetBlock s).pulseLog = [] := rfl
@[simp] theorem resetBlock_txLog (s : State) : (resetBlock s).txLog = [] := rfl
@[simp] theorem resetBlock_rspLog (s : State) : (resetBlock s).rspLog = [] := rfl
@[simp] theorem resetBlock_cmdQueue (s : State) : (resetBlock s).cmdQueue = s.cmdQueue := rfl
@[simp] theorem resetBlock_wire (s : State) : (resetBlock s).wire = s.wire := rfl
@[simp] theorem resetBlock_wireCalls (s : State) : (resetBlock s).wireCalls = s.wireCalls := rfl
@[simp] theorem resetBlock_turns (s : State) : (resetBlock s).turns = s.turns := rfl

end Sys2Proof.Machine
end

