-- ==== Sys2Proof/Laws/Ops.lean ====
section
/-! SUPPORT. For each shared operation, one lemma that says everything it can do. -/

namespace Sys2Proof.Machine

/-- A next state is reached by one road only. -/
theorem next_inj {s t : State} (h : (.next s : Outcome) = .next t) : s = t := by
  cases h
  rfl

/-- `RampRead` answers exactly the entries that exist (R13, R61). -/
theorem rampRead_eq_some {s : State} {i : Nat} {v : U16} :
    rampRead s i = some v ↔ i < s.cfg.capacity ∧ v = s.profile.rampTable.read i := by
  unfold rampRead
  split
  · rename_i h
    simp [h, eq_comm]
  · rename_i h
    simp [h]

/-- Selecting a level either sets the index and the period, or faults at an index that does not exist (R158). -/
theorem selectLevel_cases (i : Nat) (s : State) :
    (i < s.cfg.capacity ∧
      selectLevel i s = .next { s with
        profile := { s.profile with rampIndex := BitVec.ofNat 16 i }
        timers := { s.timers with period := s.profile.rampTable.read i } }) ∨
    (s.cfg.capacity ≤ i ∧ selectLevel i s = .fault .rampIndexOutOfRange) := by
  by_cases h : i < s.cfg.capacity
  · exact .inl ⟨h, by simp [selectLevel, rampRead, h]⟩
  · exact .inr ⟨by omega, by simp [selectLevel, rampRead, h]⟩

/-- Everything `plan` can do: a direct move sets one level at its own period; a ramped one fills the table and starts at its
entry 0 (R156). -/
theorem plan_cases (d rpm : Nat) (s : State) :
    (rpm < s.cfg.rpmDirect ∧
      plan d rpm s = { s with
        profile := { s.profile with rampSteps := 1, rampIndex := 0 }
        timers := { s.timers with period := periodWord s.cfg rpm } }) ∨
    (s.cfg.rpmDirect ≤ rpm ∧
      plan d rpm s = { s with
        profile :=
          { rampSteps := BitVec.ofNat 16 (rampStepsOf s.cfg rpm)
            rampTable := fillRamp s.cfg rpm (rampStepsOf s.cfg rpm) (rampStepsOf s.cfg rpm) s.profile.rampTable
            rampIndex := 0 }
        timers := { s.timers with
          period := (fillRamp s.cfg rpm (rampStepsOf s.cfg rpm) (rampStepsOf s.cfg rpm) s.profile.rampTable).read 0 } }) := by
  by_cases h : rpm < s.cfg.rpmDirect
  · exact .inl ⟨h, by simp [plan, h]⟩
  · exact .inr ⟨by omega, by simp [plan, h]⟩

/-- Everything TICK can do when it goes on (R158): nothing, the end of the move, the hold at peak speed, or another level. -/
theorem tick_next_cases {s t : State} (h : tick s = .next t) :
    (t = s ∧ (s.motion.active = false ∨ direct s = true ∧ remaining s ≠ 0)) ∨
    (t = complete s ∧ s.motion.active = true ∧ remaining s = 0 ∧ (direct s = true ∨ s.profile.rampIndex.toNat = 0)) ∨
    (t = holdPeak s ∧ s.motion.active = true ∧ direct s = false ∧ brakeDistance s < remaining s ∧
      s.profile.rampSteps.toNat ≤ s.profile.rampIndex.toNat + 1) ∨
    (s.motion.active = true ∧ direct s = false ∧ ∃ i, selectLevel i s = .next t ∧
      (brakeDistance s < remaining s ∧ i = s.profile.rampIndex.toNat + 1 ∧ i < s.profile.rampSteps.toNat ∨
       remaining s ≤ brakeDistance s ∧ i + 1 = s.profile.rampIndex.toNat ∨
       remaining s ≤ brakeDistance s ∧ remaining s ≠ 0 ∧ i = 0 ∧ s.profile.rampIndex.toNat = 0)) := by
  unfold tick at h
  split at h
  · exact .inl ⟨(next_inj h).symm, .inl ‹_›⟩
  · rename_i ha
    have ha : s.motion.active = true := by simpa using ha
    split at h
    · rename_i hd
      unfold tickDirect at h
      split at h
      · exact .inr (.inl ⟨(next_inj h).symm, ha, ‹_›, .inl hd⟩)
      · exact .inl ⟨(next_inj h).symm, .inr ⟨hd, ‹_›⟩⟩
    · rename_i hd
      have hd : direct s = false := by simpa using hd
      unfold tickRamped at h
      split at h
      · split at h
        · exact .inr (.inr (.inr ⟨ha, hd, _, h, .inl ⟨‹_›, rfl, ‹_›⟩⟩))
        · exact .inr (.inr (.inl ⟨(next_inj h).symm, ha, hd, ‹_›, by omega⟩))
      · split at h
        · exact .inr (.inr (.inr ⟨ha, hd, _, h, .inr (.inl ⟨by omega, by omega⟩)⟩))
        · split at h
          · exact .inr (.inl ⟨(next_inj h).symm, ha, ‹_›, .inr (by omega)⟩)
          · exact .inr (.inr (.inr ⟨ha, hd, _, h, .inr (.inr ⟨by omega, ‹_›, rfl, by omega⟩)⟩))

/-- PULSE does nothing at the target, and one step with one pulse elsewhere (R140). -/
theorem pulse_cases (s : State) :
    (s.motion.position = s.motion.target ∧ pulse s = s) ∨
    (s.motion.position ≠ s.motion.target ∧
      pulse s = { s with
        motion := { s.motion with position := stepPosition s.motion.direction s.motion.position }
        timers := { s.timers with stepHighCnt := s.cfg.stepHighUs }
        pulseLog := s.pulseLog ++ [dirPin s] }) := by
  by_cases h : s.motion.position = s.motion.target
  · exact .inl ⟨h, by simp [pulse, ready, h]⟩
  · exact .inr ⟨h, by simp [pulse, ready, h]⟩

/-- A byte that arrives goes to the open receive call or is held (R112). -/
theorem arrive_cases (b : Byte) (s : State) :
    (s.link.rx.length < s.link.phase.expects ∧
      arrive b s = { s with link := { s.link with rx := s.link.rx ++ [b] } }) ∨
    (s.link.phase.expects ≤ s.link.rx.length ∧ arrive b s = { s with rxHeld := s.rxHeld ++ [b] }) := by
  by_cases h : s.link.rx.length < s.link.phase.expects
  · exact .inl ⟨h, by simp [arrive, h]⟩
  · exact .inr ⟨by omega, by simp [arrive, h]⟩

/-- Bytes that arrive change only what the open call has and what the receiver holds. -/
theorem arriveAll_eq (bs : List Byte) (s : State) :
    ∃ rx held, arriveAll bs s = { s with link := { s.link with rx := rx }, rxHeld := held } ∧
      (s.link.rx.length ≤ s.link.phase.expects → rx.length ≤ s.link.phase.expects) := by
  induction bs generalizing s with
  | nil => exact ⟨s.link.rx, s.rxHeld, rfl, id⟩
  | cons b bs ih =>
    obtain ⟨rx, held, h, hl⟩ := ih (arrive b s)
    refine ⟨rx, held, ?_, ?_⟩
    · show arriveAll bs (arrive b s) = _
      rw [h]
      rcases arrive_cases b s with ⟨_, e⟩ | ⟨_, e⟩ <;> rw [e]
    · rcases arrive_cases b s with ⟨hlt, e⟩ | ⟨_, e⟩ <;> rw [e] at hl
      · intro _
        exact hl (by simpa using hlt)
      · exact hl

/-- Where bytes that arrive go: to the open call as far as it asks for them, the rest is held (R112). -/
theorem arriveAll_spec (bs : List Byte) {s : State} (h : s.link.rx.length ≤ s.link.phase.expects) :
    arriveAll bs s = { s with
      rxHeld := s.rxHeld ++ (s.link.rx ++ bs).drop s.link.phase.expects
      link := { s.link with rx := (s.link.rx ++ bs).take s.link.phase.expects } } := by
  induction bs generalizing s with
  | nil => simp [arriveAll, List.take_of_length_le h, List.drop_eq_nil_of_le h]
  | cons b bs ih =>
    show arriveAll bs (arrive b s) = _
    rcases arrive_cases b s with ⟨hl, e⟩ | ⟨hl, e⟩ <;> rw [e]
    · rw [ih (by simpa using hl)]
      simp
    · rw [ih (by exact h)]
      simp [le_antisymm h hl]

/-- WIRE's move changes its own two fields only. -/
theorem wireNext_eq (s : State) : ∃ as n, wireNext s = { s with wire := as, wireCalls := n } := by
  unfold wireNext
  split
  · exact ⟨_, s.wireCalls, rfl⟩
  · exact ⟨s.wire, _, rfl⟩

/-- Everything the end of a read can do (R117 to R119): RESPOND is next, or the write is tried again. -/
theorem finishRead_cases (st : Status) (v : Word) (s : State) :
    (s.link.isWrite = false ∧ finishRead st v s = enterRespond st v s) ∨
    (s.link.isWrite = true ∧ st = .ok ∧ v = s.link.data ∧ finishRead st v s = enterRespond .ok 0 s) ∨
    (s.link.isWrite = true ∧ ¬(st = .ok ∧ v = s.link.data) ∧ s.link.writeAttempts + 1 < linkAttempts ∧
      finishRead st v s =
        beginWriteAttempt { s with link := { s.link with writeAttempts := s.link.writeAttempts + 1 } }) ∨
    (s.link.isWrite = true ∧ ¬(st = .ok ∧ v = s.link.data) ∧ linkAttempts ≤ s.link.writeAttempts + 1 ∧
      finishRead st v s = enterRespond .verifyFailed 0 s) := by
  unfold finishRead
  cases hw : s.link.isWrite
  · exact .inl ⟨rfl, by simp⟩
  · by_cases h : st = .ok ∧ v = s.link.data
    · exact .inr (.inl ⟨rfl, h.1, h.2, by simp [h]⟩)
    · by_cases ha : s.link.writeAttempts + 1 < linkAttempts
      · exact .inr (.inr (.inl ⟨rfl, h, ha, by simp [h, ha]⟩))
      · exact .inr (.inr (.inr ⟨rfl, h, by omega, by simp [h, ha]⟩))

/-- Everything a failed read attempt can do (R116): it is tried again, or the read ends with this error. -/
theorem failRead_cases (e : Status) (s : State) :
    (s.link.readAttempts + 1 < linkAttempts ∧
      failRead e s =
        beginReadAttempt { s with link := { s.link with readAttempts := s.link.readAttempts + 1, err := e } }) ∨
    (linkAttempts ≤ s.link.readAttempts + 1 ∧
      failRead e s = finishRead e 0 { s with link := { s.link with err := e } }) := by
  unfold failRead
  split
  · exact .inl ⟨‹_›, rfl⟩
  · exact .inr ⟨by omega, rfl⟩

/-- The end of a read writes the sequencer only (R121). -/
theorem finishRead_eq (st : Status) (v : Word) (s : State) : ∃ l, finishRead st v s = { s with link := l } := by
  rcases finishRead_cases st v s with ⟨_, h⟩ | ⟨_, _, _, h⟩ | ⟨_, _, _, h⟩ | ⟨_, _, _, h⟩ <;> exact ⟨_, h⟩

/-- A failed read attempt writes the sequencer only (R121). -/
theorem failRead_eq (e : Status) (s : State) : ∃ l, failRead e s = { s with link := l } := by
  rcases failRead_cases e s with ⟨_, h⟩ | ⟨_, h⟩
  · exact ⟨_, h⟩
  · obtain ⟨l, h'⟩ := finishRead_eq e 0 { s with link := { s.link with err := e } }
    exact ⟨l, by rw [h, h']⟩

/-- A microsecond changes the link's wait counter only, and only while it waits (R38; log 16). -/
theorem countWait_cases (l : LinkState) :
    (l.phase.waits = true ∧ countWait l = { l with waitUs := l.waitUs + 1 }) ∨
    (l.phase.waits = false ∧ countWait l = l) := by
  unfold countWait
  cases h : l.phase.waits
  · exact .inr ⟨rfl, by simp⟩
  · exact .inl ⟨rfl, by simp⟩

/-- Everything the HOST's move can do (R80, R86, U13). -/
theorem hostMove_cases (s : State) :
    (∃ r, s.rsp = some r ∧ hostMove s = .next (takeResponse r s)) ∨
    (s.rsp = none ∧ (s.cmdQueue = [] ∨ s.link.phase ≠ .idle) ∧ hostMove s = .next s) ∨
    (∃ w ws, s.rsp = none ∧ s.cmdQueue = w :: ws ∧ s.link.phase = .idle ∧
      hostMove s = acceptCommand w { s with cmdQueue := ws }) := by
  unfold hostMove
  cases hr : s.rsp with
  | some r => exact .inl ⟨r, rfl, rfl⟩
  | none =>
    cases hq : s.cmdQueue with
    | nil => exact .inr (.inl ⟨rfl, .inl rfl, rfl⟩)
    | cons w ws =>
      by_cases hp : s.link.phase = .idle
      · exact .inr (.inr ⟨w, ws, rfl, rfl, hp, by simp [cmdReady, hr, hp]⟩)
      · exact .inr (.inl ⟨rfl, .inr hp, by simp [cmdReady, hr, hp]⟩)

end Sys2Proof.Machine
end

