-- ==== Sys2Proof/Laws/Link.lean ====
section
/-! SUPPORT. What a LINK step can do in each phase of the sequencer (spec/40_register_link.md R123). -/

namespace Sys2Proof.Machine

/-- A request frame that stands to be sent decodes to itself (R113). -/
theorem decodeSent_readRequest (c : Config) (a : BitVec 7) :
    decodeSent (readRequest c a) = .ok (.frameReadReq (syncByte c) (nodeByte c) a (readReqCrc c a)) := by
  have h7 : ∀ b : BitVec 7, (readAddrByte b).getLsbD 7 = false ∧ (readAddrByte b).setWidth 7 = b := by decide
  simp only [readRequest, readReqBytes, decodeSent, (h7 a).1, (h7 a).2, Bool.false_eq_true, if_false]

/-- A write request that stands to be sent decodes to itself (R114). -/
theorem decodeSent_writeRequest (c : Config) (a : BitVec 7) (v : Word) :
    decodeSent (writeRequest c a v) = .ok (.frameWriteReq (syncByte c) (nodeByte c) a v (writeReqCrc c a v)) := by
  have h7 : ∀ b : BitVec 7, (writeAddrByte b).getLsbD 7 = true ∧ (writeAddrByte b).setWidth 7 = b := by decide
  simp only [writeRequest, writeReqBytes, wordBytes, List.cons_append, List.nil_append, decodeSent, (h7 a).1, (h7 a).2,
    if_true, bytesWord_extract]

/-- The sending phase of a read attempt (R113, R116). -/
theorem sendFrame_readRequest {s : State} {a : BitVec 7} (h : s.link.txFrame = readRequest s.cfg a) :
    sendFrame s = .next (openReceive .rEcho (uartSend (readRequest s.cfg a) (uartFlush s))) := by
  unfold sendFrame
  rw [h, decodeSent_readRequest]
  rfl

/-- The sending phase of a write attempt (R114, R117). -/
theorem sendFrame_writeRequest {s : State} {a : BitVec 7} {v : Word} (h : s.link.txFrame = writeRequest s.cfg a v) :
    sendFrame s = .next (openReceive .wEcho (uartSend (writeRequest s.cfg a v) (uartFlush s))) := by
  unfold sendFrame
  rw [h, decodeSent_writeRequest]
  rfl

/-- The error of a call with too few bytes is one of two (R201). -/
theorem shortError_cases (got : List Byte) : shortError got = .timeout ∨ shortError got = .shortRead := by
  unfold shortError
  split
  · exact .inl rfl
  · exact .inr rfl

/-- The end of an echo call of a read attempt: the attempt fails, or the reply is awaited (R116). -/
theorem echoDone_cases (got : List Byte) (s : State) :
    (∃ e, (e = .timeout ∨ e = .shortRead) ∧ echoDone got s = failRead e s) ∨ echoDone got s = openReceive .rReply s := by
  unfold echoDone
  split
  · exact .inl ⟨_, shortError_cases got, rfl⟩
  · exact .inr rfl

/-- The end of a reply call: the read ends with a value, or the attempt fails (R116). -/
theorem replyDone_cases (got : List Byte) {s : State} (hp : s.link.phase = .rReply) :
    (∃ v, replyDone got s = .next (finishRead .ok v s)) ∨
    (∃ e, (e = .timeout ∨ e = .shortRead ∨ e = .crc) ∧ replyDone got s = .next (failRead e s)) := by
  unfold replyDone
  split
  · rename_i i h
    unfold decodeReceived at h
    split at h
    · injection h with h
      subst h
      simp only [exec, execFrameReply, hp, if_true]
      split
      · exact .inl ⟨_, rfl⟩
      · exact .inr ⟨.crc, .inr (.inr rfl), rfl⟩
    · cases h
  · rcases shortError_cases got with h | h <;> rw [h]
    · exact .inr ⟨_, .inl rfl, rfl⟩
    · exact .inr ⟨_, .inr (.inl rfl), rfl⟩

/-- Everything a LINK step of the event level can do where a sending phase holds its frame (R116, R117, R123). -/
theorem linkStep_cases {s : State}
    (hr : s.link.phase = .rFlushSend → s.link.txFrame = readRequest s.cfg s.link.addr)
    (hw : s.link.phase = .wFlushSend → s.link.txFrame = writeRequest s.cfg s.link.addr s.link.data) :
    (s.link.phase = .idle ∧ linkStep s = .next s) ∨ (s.link.phase = .respond ∧ linkStep s = .next (offerResponse s)) ∨
    (s.link.phase = .rFlushSend ∧
      linkStep s = .next (openReceive .rEcho (uartSend (readRequest s.cfg s.link.addr) (uartFlush s)))) ∨
    (s.link.phase = .rEcho ∧
      ((∃ e, (e = .timeout ∨ e = .shortRead) ∧ linkStep s = .next (failRead e (wireNext s))) ∨
       linkStep s = .next (openReceive .rReply (wireNext s)))) ∨
    (s.link.phase = .rReply ∧
      ((∃ v, linkStep s = .next (finishRead .ok v (wireNext s))) ∨
       (∃ e, (e = .timeout ∨ e = .shortRead ∨ e = .crc) ∧ linkStep s = .next (failRead e (wireNext s))))) ∨
    (s.link.phase = .wFlushSend ∧
      linkStep s =
        .next (openReceive .wEcho (uartSend (writeRequest s.cfg s.link.addr s.link.data) (uartFlush s)))) ∨
    (s.link.phase = .wEcho ∧ linkStep s = .next (writeEchoDone (wireNext s))) ∨
    (s.link.phase = .wDelay ∧ linkStep s = .next (beginRead s)) := by
  have hl : (wireNext s).link = s.link := by
    obtain ⟨as, n, e⟩ := wireNext_eq s
    rw [e]
  unfold linkStep
  cases hp : s.link.phase with
  | idle => exact .inl ⟨rfl, rfl⟩
  | respond => exact .inr (.inl ⟨rfl, rfl⟩)
  | rFlushSend => exact .inr (.inr (.inl ⟨rfl, sendFrame_readRequest (hr hp)⟩))
  | wFlushSend => exact .inr (.inr (.inr (.inr (.inr (.inl ⟨rfl, sendFrame_writeRequest (hw hp)⟩)))))
  | rEcho =>
    refine .inr (.inr (.inr (.inl ⟨rfl, ?_⟩)))
    simp only [receiveCall, receiveDone, hl, hp]
    rcases echoDone_cases (received (wireAnswer s) s) (wireNext s) with ⟨e, he, h⟩ | h <;> rw [h]
    · exact .inl ⟨e, he, rfl⟩
    · exact .inr rfl
  | rReply =>
    refine .inr (.inr (.inr (.inr (.inl ⟨rfl, ?_⟩))))
    simp only [receiveCall, receiveDone, hl, hp]
    exact replyDone_cases _ (by rw [hl, hp])
  | wEcho =>
    refine .inr (.inr (.inr (.inr (.inr (.inr (.inl ⟨rfl, ?_⟩))))))
    simp only [receiveCall, receiveDone, hl, hp]
  | wDelay => exact .inr (.inr (.inr (.inr (.inr (.inr (.inr ⟨rfl, rfl⟩))))))

end Sys2Proof.Machine
end

