-- ==== Sys2Proof/Laws/PerInstr.lean ====
section
/-! SUPPORT. The laws stated for every instruction, one lemma per constructor. -/

namespace Sys2Proof.Laws

open Machine

/-- The opcode of a command's row, or the byte count of a frame's (R83, R89, spec/opcode_table.json). -/
def rowKey : Instr → Nat
  | .nop => 0x00
  | .goto _ _ => 0x01
  | .stop => 0x02
  | .ready => 0x03
  | .setpos _ => 0x04
  | .setinv _ => 0x05
  | .getpos => 0x08
  | .gettgt => 0x09
  | .getstat => 0x0A
  | .getprof => 0x0B
  | .getramp _ => 0x0C
  | .rdreg _ => 0x10
  | .wrreg _ _ => 0x11
  | .frameReadReq _ _ _ _ => 4
  | .frameWriteReq _ _ _ _ _ => 8
  | .frameReply _ _ _ _ _ => 8

/-- The opcode of an encoded command, or the byte count of an encoded frame. -/
def encodedKey : Encoded → Nat
  | .command w => (opcodeField w).toNat
  | .sent f => f.length
  | .received f => f.length

/-- An instruction's encoding has its row's opcode or byte count. -/
def EncodeKey.Statement (i : Instr) : Prop := encodedKey (encode i) = rowKey i

theorem EncodeKey.nop : EncodeKey.Statement .nop := by simp [EncodeKey.Statement, encode, encodedKey, rowKey, opNop]
theorem EncodeKey.goto (t : Word) (rpm : U16) : EncodeKey.Statement (.goto t rpm) := by
  simp [EncodeKey.Statement, encode, encodedKey, rowKey, opGoto]
theorem EncodeKey.stop : EncodeKey.Statement .stop := by simp [EncodeKey.Statement, encode, encodedKey, rowKey, opStop]
theorem EncodeKey.ready : EncodeKey.Statement .ready := by
  simp [EncodeKey.Statement, encode, encodedKey, rowKey, opReady]
theorem EncodeKey.setpos (p : Word) : EncodeKey.Statement (.setpos p) := by
  simp [EncodeKey.Statement, encode, encodedKey, rowKey, opSetpos]
theorem EncodeKey.setinv (b : Bool) : EncodeKey.Statement (.setinv b) := by
  simp [EncodeKey.Statement, encode, encodedKey, rowKey, opSetinv]
theorem EncodeKey.getpos : EncodeKey.Statement .getpos := by
  simp [EncodeKey.Statement, encode, encodedKey, rowKey, opGetpos]
theorem EncodeKey.gettgt : EncodeKey.Statement .gettgt := by
  simp [EncodeKey.Statement, encode, encodedKey, rowKey, opGettgt]
theorem EncodeKey.getstat : EncodeKey.Statement .getstat := by
  simp [EncodeKey.Statement, encode, encodedKey, rowKey, opGetstat]
theorem EncodeKey.getprof : EncodeKey.Statement .getprof := by
  simp [EncodeKey.Statement, encode, encodedKey, rowKey, opGetprof]
theorem EncodeKey.getramp (x : Word) : EncodeKey.Statement (.getramp x) := by
  simp [EncodeKey.Statement, encode, encodedKey, rowKey, opGetramp]
theorem EncodeKey.rdreg (a : BitVec 7) : EncodeKey.Statement (.rdreg a) := by
  simp [EncodeKey.Statement, encode, encodedKey, rowKey, opRdreg]
theorem EncodeKey.wrreg (a : BitVec 7) (v : Word) : EncodeKey.Statement (.wrreg a v) := by
  simp [EncodeKey.Statement, encode, encodedKey, rowKey, opWrreg]
theorem EncodeKey.frameReadReq (b0 b1 : Byte) (a : BitVec 7) (crc : Byte) :
    EncodeKey.Statement (.frameReadReq b0 b1 a crc) := rfl
theorem EncodeKey.frameWriteReq (b0 b1 : Byte) (a : BitVec 7) (v : Word) (crc : Byte) :
    EncodeKey.Statement (.frameWriteReq b0 b1 a v crc) := rfl
theorem EncodeKey.frameReply (h0 h1 h2 : Byte) (v : Word) (crc : Byte) :
    EncodeKey.Statement (.frameReply h0 h1 h2 v crc) := rfl

end Sys2Proof.Laws
end

