-- ==== Sys2Proof/Laws/Step.lean ====
section
/-! SUPPORT. What one step can do. -/

namespace Sys2Proof.Machine

/-- A step that goes on had a well-formed configuration, and was one microsecond of the timed level or the scheduled move. -/
theorem step_next_cases {s t : State} (h : step s = .next t) :
    s.cfg.wf = true ∧
      ((s.turns = [] ∧ t = timedMicrosecond s) ∨
       ∃ u us, s.turns = u :: us ∧ performTurn u { s with turns := us } = .next t) := by
  unfold step at h
  split at h
  · rename_i hw
    refine ⟨hw, ?_⟩
    cases ht : s.turns with
    | nil =>
      rw [ht] at h
      exact .inl ⟨rfl, (next_inj h).symm⟩
    | cons u us =>
      rw [ht] at h
      exact .inr ⟨u, us, rfl, h⟩
  · cases h

/-- With a well-formed configuration and a move scheduled, the step is that move. -/
theorem step_of_turn {s : State} {u : Turn} {us : List Turn} (hw : s.cfg.wf = true) (ht : s.turns = u :: us) :
    step s = performTurn u { s with turns := us } := by
  simp [step, hw, ht]

/-- With a well-formed configuration and nothing scheduled, the step is one microsecond of the timed level. -/
theorem step_of_no_turn {s : State} (hw : s.cfg.wf = true) (ht : s.turns = []) :
    step s = .next (timedMicrosecond s) := by
  simp [step, hw, ht]

/-- The default configuration is well formed (R10). -/
theorem default_wf : Config.default.wf = true := by decide

end Sys2Proof.Machine
end

