-- ==== Sys2Proof/Tests/Slice0.lean ====
section
/-! SUPPORT. Tests. Expected values are those of spec/95_test_vectors.md, which derives them from the rules, or are worked by
hand from the rule a comment names. -/

namespace Sys2Proof.Tests

open Sys2Proof.Machine

/-- The next state, if there is one. -/
def after (o : Outcome) : Option State :=
  match o with
  | .next t => some t
  | _ => none

/-- The state after an instruction, seen through `f`. -/
def run1 {α : Type} (i : Instr) (s : State) (f : State → α) : Option α := (after (exec i s)).map f

/-- The state after one step, seen through `f`. -/
def step1 {α : Type} (s : State) (f : State → α) : Option α := (after (step s)).map f

/-- The state after the moves `us`, seen through `f`. -/
def turns {α : Type} (us : List Turn) (s : State) (f : State → α) : Option α :=
  (after (Host.Core.run core us.length { s with turns := us })).map f

/-- A state at rest at `p`. -/
def restAt (p : Word) : State := { State.reset with motion := { MotionState.reset with position := p, target := p } }

/-- A move under way. -/
def moving (p t : Word) (d : Direction) (rpm steps index : U16) : State :=
  { State.reset with
    motion := { MotionState.reset with position := p, target := t, direction := d, speedRpm := rpm, active := true }
    profile := { VelocityProfile.reset with rampSteps := steps, rampIndex := index } }

/-- The host presents `w` at reset. -/
def presents (w : Word64) : State := { State.reset with cmdQueue := [w], turns := [.host] }

/-! Configuration and well-formedness: each check refuses an ill-formed term. -/

theorem test_wf_capacity_refused : ({ Config.default with capacity := 2 }).wfCapacity = false := by decide
theorem test_wf_speeds_refused : ({ Config.default with rpmDirect := 29 }).wfSpeeds = false := by decide
theorem test_wf_rate_refused : ({ Config.default with stepsPerRev := 20001 }).wfRate = false := by decide
theorem test_wf_stepHigh_refused : ({ Config.default with stepHighUs := 6 }).wfStepHigh = false := by decide
theorem test_wf_sig_refused : ({ Config.default with sig := sig64.reverse }).wfSig = false := by decide
theorem test_wf_link_refused : ({ Config.default with sync := 0x100 }).wfLink = false := by decide
theorem test_wf_getramp_refused : (Instr.getramp 64).wf Config.default = false := by decide
theorem test_wf_readReq_refused : (Instr.frameReadReq 0x55 0x00 0x06 0x6F).wf Config.default = false := by decide
theorem test_wf_readReq_crc_refused : (Instr.frameReadReq 0x05 0x00 0x06 0x6E).wf Config.default = false := by decide +kernel
theorem test_wf_writeReq_refused :
    (Instr.frameWriteReq 0x05 0x01 0x10 0x00071703 0x3B).wf Config.default = false := by decide
theorem test_wf_writeReq_ok : (Instr.frameWriteReq 0x05 0x00 0x10 0x00071703 0x3B).wf Config.default = true := by decide +kernel
/-- R10, U9: a step refuses an ill-formed configuration. -/
theorem test_step_refuses_config :
    step { State.reset with cfg := { Config.default with capacity := 2 } } = .refused .illFormedConfig := by
  rw [step, if_neg (by decide)]

/-! Decoding: every row's word written out (R81, R83, R89; words of 95_test_vectors.md). -/

theorem test_decode_nop : decodeCommand Config.default 0x0000000000000000#64 = .ok .nop := by decide
theorem test_decode_goto : decodeCommand Config.default 0x01000096000186A0#64 = .ok (.goto 100000 150) := by decide
theorem test_decode_stop : decodeCommand Config.default 0x0200000000000000#64 = .ok .stop := by decide
theorem test_decode_ready : decodeCommand Config.default 0x0300000000000000#64 = .ok .ready := by decide
theorem test_decode_setpos :
    decodeCommand Config.default 0x04000000FFFFFFFF#64 = .ok (.setpos 0xFFFFFFFF#32) := by decide
theorem test_decode_setinv : decodeCommand Config.default 0x0500000000000001#64 = .ok (.setinv true) := by decide
theorem test_decode_getpos : decodeCommand Config.default 0x0800000000000000#64 = .ok .getpos := by decide
theorem test_decode_gettgt : decodeCommand Config.default 0x0900000000000000#64 = .ok .gettgt := by decide
theorem test_decode_getstat : decodeCommand Config.default 0x0A00000000000000#64 = .ok .getstat := by decide
theorem test_decode_getprof : decodeCommand Config.default 0x0B00000000000000#64 = .ok .getprof := by decide
theorem test_decode_getramp : decodeCommand Config.default 0x0C0000000000001D#64 = .ok (.getramp 29) := by decide
theorem test_decode_rdreg : decodeCommand Config.default 0x106C000000000000#64 = .ok (.rdreg 0x6C#7) := by decide
theorem test_decode_wrreg :
    decodeCommand Config.default 0x116C000010000053#64 = .ok (.wrreg 0x6C#7 0x10000053) := by decide
theorem test_decode_frameReadReq :
    decodeSent [0x05#8, 0x00#8, 0x06#8, 0x6F#8] = .ok (.frameReadReq 0x05 0x00 0x06#7 0x6F) := by decide
theorem test_decode_frameWriteReq :
    decodeSent [0x05#8, 0x00#8, 0x90#8, 0x00#8, 0x07#8, 0x17#8, 0x03#8, 0x3B#8] =
      .ok (.frameWriteReq 0x05 0x00 0x10#7 0x00071703 0x3B) := by decide
theorem test_decode_frameReply :
    decodeReceived [0x05#8, 0xFF#8, 0x06#8, 0x20#8, 0x00#8, 0x00#8, 0x40#8, 0x7E#8] =
      .ok (.frameReply 0x05 0xFF 0x06 0x20000040 0x7E) := by decide
/-- 95_test_vectors.md section 6: the illegal words, one for each reason. -/
theorem test_decode_illegal :
    (decodeCommand Config.default 0x0000000000000001#64 = .error .reservedField) ∧
    (decodeCommand Config.default 0x0101000000000005#64 = .error .reservedField) ∧
    (decodeCommand Config.default 0x0500000000000002#64 = .error .outOfRange) ∧
    (decodeCommand Config.default 0x0C00000000000040#64 = .error .outOfRange) ∧
    (decodeCommand Config.default 0x1080000000000000#64 = .error .outOfRange) ∧
    (decodeCommand Config.default 0x1100000100000000#64 = .error .reservedField) ∧
    (decodeCommand Config.default 0x0D00000000000000#64 = .error .undefinedOpcode) ∧
    (decodeCommand Config.default 0xFF00000000000000#64 = .error .undefinedOpcode) := by decide
theorem test_decodeTableWord :
    decodeTableWord 64 0x1006000000000000 = some (.rdreg 0x06#7) ∧
    decodeTableWord 32 0x0500066F = some (.frameReadReq 0x05 0x00 0x06#7 0x6F) ∧
    decodeTableWord 64 0x050090000717033B = some (.frameWriteReq 0x05 0x00 0x10#7 0x00071703 0x3B) ∧
    decodeTableWord 64 0x05FF06200000407E = some (.frameReply 0x05 0xFF 0x06 0x20000040 0x7E) := by decide

/-! The checksum and the frames (95_test_vectors.md sections 2.1, 2.2). -/

theorem test_crc8 :
    crc8 [] = 0x00#8 ∧ crc8 [0x01#8] = 0x89#8 ∧ crc8 [0x80#8] = 0x07#8 ∧ crc8 [0xFF#8] = 0xF3#8 ∧
    crc8 [0x05#8, 0x00#8, 0x00#8] = 0x48#8 ∧
    crc8 [0x05#8, 0xFF#8, 0x06#8, 0x12#8, 0x34#8, 0x56#8, 0x78#8] = 0x97#8 := by decide +kernel
theorem test_readRequest : readRequest Config.default 0x7F = [0x05#8, 0x00#8, 0x7F#8, 0xBC#8] := by decide +kernel
theorem test_writeRequest :
    writeRequest Config.default 0x6C 0x10000053 =
      [0x05#8, 0x00#8, 0xEC#8, 0x10#8, 0x00#8, 0x00#8, 0x53#8, 0x9C#8] := by decide +kernel
theorem test_goodReply :
    goodReply 0x10 0x00071703 = [0x05#8, 0xFF#8, 0x10#8, 0x00#8, 0x07#8, 0x17#8, 0x03#8, 0xF6#8] := by decide +kernel

/-! Status commands (95_test_vectors.md section 6). -/

theorem test_nop_answer : step1 (presents 0x0000000000000000#64) (·.rsp) = some (some 0x0000000000000000#64) := by decide
theorem test_illegal_answer : step1 (presents 0x0000000000000001#64) (·.rsp) = some (some 0x0002000000000000#64) := by decide
theorem test_getpos : run1 .getpos (restAt 0xFFFFFC7B#32) (·.rsp) = some (some 0x08000000FFFFFC7B#64) := by decide
theorem test_gettgt : run1 .gettgt (restAt 4150) (·.rsp) = some (some 0x0900000000001036#64) := by decide
theorem test_getstat_reset : run1 .getstat State.reset (·.rsp) = some (some 0x0A00000000000012#64) := by decide
theorem test_getstat_reverse :
    run1 .getstat
      { State.reset with
        motion := ⟨995, 995, .reverse, true, 30, true⟩, profile := { VelocityProfile.reset with rampSteps := 1 } }
      (·.rsp) = some (some 0x0A00001E0000003F#64) := by decide
theorem test_getprof_reset : run1 .getprof State.reset (·.rsp) = some (some 0x0B00FFFF00000000#64) := by decide
theorem test_getprof_cruise :
    run1 .getprof
      { State.reset with
        profile := { VelocityProfile.reset with rampSteps := 30, rampIndex := 29 }
        timers := { Timers.reset with period := 250 } }
      (·.rsp) = some (some 0x0B0000FA001E001D#64) := by decide

/-! Motion commands (95_test_vectors.md sections 1.7, 3.3, 5). -/

theorem test_goto_ramped :
    run1 (.goto 100000 150) State.reset
      (fun t => (t.rsp, t.motion, t.profile.rampSteps, t.timers.period, t.timers.periodAct)) =
      some (some 0x0100000000000000#64, ⟨0, 100000, .forward, false, 150, true⟩, 30, 1250, 1250) := by decide
theorem test_goto_limits :
    run1 (.goto 0x7FFFFFFF#32 65535) (restAt 0x80000000#32)
      (fun t => (t.motion.direction, t.motion.speedRpm, t.profile.rampSteps, remaining t)) =
      some (.forward, 300, 60, 4294967295) := by decide
theorem test_ramp_table_40 :
    run1 (.goto 1 40) State.reset (fun t => (List.range 9).map t.profile.rampTable.read) =
      some [1250, 1250, 1250, 1172, 1014, 961, 961, 938, 0] := by decide
theorem test_getramp :
    ((after (exec (.goto 100000 150) State.reset)).bind fun t => run1 (.getramp 12) t (·.rsp)) =
      some (some 0x0C00000000000267#64) := by decide
theorem test_getramp_illegal : run1 (.getramp 64) State.reset (·.rsp) = some (some 0x0C02000000000000#64) := by decide
theorem test_stop_ramped :
    run1 .stop (moving 400 100000 .forward 150 30 29) (fun t => (t.rsp, t.motion.target)) =
      some (some 0x0200000000000000#64, 4150) := by decide
theorem test_stop_saturates :
    run1 .stop (moving 2147483100 2147483647 .forward 300 60 0) (·.motion.target) = some 2147483647 := by decide
theorem test_stop_direct_reverse :
    run1 .stop (moving (BitVec.ofInt 32 (-10)) (BitVec.ofInt 32 (-100)) .reverse 20 1 0) (·.motion.target) =
      some (BitVec.ofInt 32 (-11)) := by decide
theorem test_ready_active :
    run1 .ready (moving 995 995 .reverse 30 1 0) (·.rsp) = some (some 0x0300000000000001#64) := by decide
theorem test_setpos :
    run1 (.setpos 1000) State.reset (fun t => (t.rsp, t.motion.position, t.motion.target)) =
      some (some 0x0400000000000000#64, 1000, 1000) := by decide
theorem test_setpos_moving :
    run1 (.setpos 7) (moving 0 50 .forward 100 20 0) (fun t => (t.rsp, t.motion.position)) =
      some (some 0x0401000000000000#64, 0) := by decide
theorem test_setinv :
    run1 (.setinv true) State.reset (fun t => (t.rsp, dirPin State.reset, dirPin t)) =
      some (some 0x0500000000000000#64, true, false) := by decide

/-! Speed to period (95_test_vectors.md section 3.1). -/

theorem test_periodOf :
    [0, 1, 2, 9, 30, 39, 40, 100, 299, 300].map (periodOf Config.default) =
      [65535, 38461, 18867, 4166, 1250, 961, 938, 375, 125, 125] := by decide
theorem test_rampStepsOf :
    [9, 14, 15, 40, 150, 300, 314, 315, 320, 65535].map (rampStepsOf Config.default) =
      [2, 2, 3, 8, 30, 60, 62, 63, 63, 63] := by decide

/-! PULSE, TICK and the timers (95_test_vectors.md sections 3.4, 4, 7). -/

theorem test_pulse_reverse_inverted :
    turns [.pulse, .pulse, .pulse]
      { State.reset with motion := ⟨1000, 998, .reverse, true, 30, true⟩ }
      (fun t => (t.motion.position, t.pulseLog)) = some (998, [true, true]) := by decide
theorem test_tick_accelerates_then_brakes :
    ((after (exec (.goto 2501 100) State.reset)).bind fun t =>
      turns [.tick, .pulse, .tick] t (fun u => (u.motion.position, u.profile.rampIndex, u.timers.period))) =
      some (1, 0, 1250) := by decide
theorem test_tick_completes :
    step1 { moving 100 100 .forward 20 1 0 with turns := [.tick] }
      (fun t => (t.motion.active, t.motion.speedRpm, t.profile.rampSteps)) = some (false, 0, 0) := by decide
theorem test_first_alarm :
    turns [.micro] { State.reset with timers := { Timers.reset with tcnt := 65534 } }
      (fun t => (t.turns, t.timers.tcnt, t.timers.periodAct)) = some ([.pulse], 0, 65535) := by decide
theorem test_first_tick :
    turns [.micro] { State.reset with timers := { Timers.reset with tickCnt := 9999 } }
      (fun t => (t.turns, t.timers.tickCnt)) = some ([.tick], 0) := by decide
theorem test_timed_order :
    step1 { State.reset with timers := { Timers.reset with tcnt := 65534, tickCnt := 9999 } } (·.turns) =
      some [.pulse, .tick, .host, .linkTimed] := by decide

/-! The Register Link (95_test_vectors.md section 2.4). -/

/-- A good echo of a read request. -/
def e4 : List Byte := [0x05#8, 0x00#8, 0x06#8, 0x6F#8]

/-- Row LR2: the retry after a bad checksum. -/
theorem test_rdreg_retry :
    turns ([.host] ++ List.replicate 7 .link)
      { presents 0x1006000000000000#64 with
        wire := [e4, [0x05#8, 0xFF#8, 0x06#8, 0x20#8, 0x00#8, 0x01#8, 0x40#8, 0x7E#8],
                 e4, [0x05#8, 0xFF#8, 0x06#8, 0x20#8, 0x00#8, 0x00#8, 0x40#8, 0x7E#8]] }
      (fun t => (t.rsp, t.txLog)) = some (some 0x1000000020000040#64, [e4, e4]) := by decide +kernel
/-- Row LR10: the error of the last attempt. -/
theorem test_rdreg_last_error :
    turns ([.host] ++ List.replicate 6 .link)
      { presents 0x1000000000000000#64 with
        wire := [[], e4, [0x05#8, 0xFF#8, 0x00#8, 0x00#8, 0x00#8, 0x00#8, 0x00#8]] }
      (·.rsp) = some (some 0x1011000000000000#64) := by decide
/-- Row LW2: the length of the write echo is not checked. -/
theorem test_wrreg :
    turns ([.host] ++ List.replicate 7 .link)
      { presents 0x1110000000071703#64 with
        wire := [[0x05#8, 0x00#8, 0x90#8], e4,
                 [0x05#8, 0xFF#8, 0x10#8, 0x00#8, 0x07#8, 0x17#8, 0x03#8, 0xF6#8]] }
      (fun t => (t.rsp, t.txLog.length)) = some (some 0x1100000000000000#64, 2) := by decide +kernel
/-- R112: with the time over and no byte there, the timed receive call fails the attempt, which is tried again. -/
theorem test_timed_timeout :
    turns [.linkTimed]
      { State.reset with
        link := { LinkState.idle with phase := .rEcho, waitUs := 20000 }, wire := [[]] }
      (fun t => (t.link.phase, t.link.readAttempts, t.link.err)) = some (.rFlushSend, 1, .timeout) := by decide
theorem test_frameReadReq :
    run1 (.frameReadReq 0x05 0x00 0x06#7 0x6F) { State.reset with rxHeld := [0xAA#8] }
      (fun t => (t.txLog, t.rxHeld, t.link.phase)) = some ([e4], [], .rEcho) := by decide
theorem test_frameWriteReq :
    run1 (.frameWriteReq 0x05 0x00 0x10#7 0x00071703 0x3B) State.reset (fun t => (t.txLog, t.link.phase)) =
      some ([[0x05#8, 0x00#8, 0x90#8, 0x00#8, 0x07#8, 0x17#8, 0x03#8, 0x3B#8]], .wEcho) := by decide
theorem test_frameReply :
    run1 (.frameReply 0x05 0xFF 0x06 0x20000040 0x7E)
      { State.reset with link := { LinkState.idle with phase := .rReply } }
      (fun t => (t.rsp, t.link.phase, t.link.status, t.link.value)) =
      some (none, .respond, .ok, 0x20000040) := by decide +kernel
/-- R118, R119, R123: the LINK step of RESPOND offers the response, at either level, and the port is free once it is taken. -/
theorem test_respond :
    turns [.link]
      { State.reset with link := { LinkState.idle with phase := .respond, isWrite := true, status := .verifyFailed } }
      (fun t => (t.rsp, t.link)) = some (some 0x1113000000000000#64, LinkState.idle) ∧
    turns [.host, .linkTimed, .host]
      { State.reset with link := { LinkState.idle with phase := .respond, value := 5 } }
      (fun t => (t.rsp, t.rspLog, cmdReady t)) = some (none, [0x1000000000000005#64], true) := by decide

/-! Each row's word, placed where the next step fetches it, runs from reset. -/

theorem test_fetch_goto :
    step1 (State.reset.withFetchWord 64 0x0100006400000A28) (·.motion.target) = some 2600 := by decide
theorem test_fetch_frameReadReq :
    step1 (State.reset.withFetchWord 32 0x00000000) (·.txLog) = some [[0x00#8, 0x00#8, 0x00#8, 0x00#8]] := by decide
theorem test_fetch_frameReply :
    step1 (State.reset.withFetchWord 64 0x05FF06200000407E) (·.link.value) = some 0x20000040#32 := by decide +kernel

/-! Witnesses: concrete states that meet the hypotheses of the statements of Certificates/Slice0/Obligations.lean. -/

open Sys2Proof.Statements

/-- A move planned by `GOTO t, rpm` from reset, seen later at `p` with another index. -/
def onMove (t : Word) (rpm : Nat) (p : Word) (index : U16) : State :=
  let m := startMove t rpm State.reset
  { m with motion := { m.motion with position := p }, profile := { m.profile with rampIndex := index } }

/-- A direct move. -/
def wDirect : State := onMove 100 20 3 0
/-- A direct move that has arrived. -/
def wDirectDone : State := onMove 100 20 100 0
/-- A ramped move in each of its five branches (R160); its brake distance is 1000 steps. -/
def wRampUp : State := onMove 2000 40 999 6
/-- At the top level, one step above the brake distance. -/
def wCruise : State := onMove 2000 40 999 7
/-- At the top level, on the brake distance. -/
def wBrake : State := onMove 2000 40 1000 7
/-- At the floor, one step before the target. -/
def wFloorHold : State := onMove 2000 40 1999 0
/-- At the floor, at the target. -/
def wStopping : State := onMove 2000 40 2000 0
/-- A ramped move that has arrived at level 7. -/
def wArrived : State := onMove 2000 40 2000 7
/-- A reverse move to the least position, one step away. -/
def wReverse : State := onMove 0x80000000#32 20 0x80000001#32 0

theorem test_inv_rest : Inv (restAt 5) := by
  refine ⟨by decide, ?_, ?_, ?_⟩ <;> constructor <;> first | decide | (intro h; exact absurd h (by decide))
theorem test_inv_direct : Inv wDirect := by
  refine ⟨by decide, ?_, ?_, ?_⟩ <;> constructor <;> first | decide | (intro _ h; exact absurd h (by decide))
theorem test_inv_directDone : Inv wDirectDone := by
  refine ⟨by decide, ?_, ?_, ?_⟩ <;> constructor <;> first | decide | (intro _ h; exact absurd h (by decide))
theorem test_inv_reverse : Inv wReverse := by
  refine ⟨by decide, ?_, ?_, ?_⟩ <;> constructor <;> first | decide | (intro _ h; exact absurd h (by decide))
theorem test_inv_rampUp : Inv wRampUp := by
  refine ⟨by decide, ?_, ?_, ?_⟩ <;> constructor <;> first | decide | (intro _ _; unfold RampPlanned; decide +kernel)
theorem test_inv_cruise : Inv wCruise := by
  refine ⟨by decide, ?_, ?_, ?_⟩ <;> constructor <;> first | decide | (intro _ _; unfold RampPlanned; decide +kernel)
theorem test_inv_brake : Inv wBrake := by
  refine ⟨by decide, ?_, ?_, ?_⟩ <;> constructor <;> first | decide | (intro _ _; unfold RampPlanned; decide +kernel)
theorem test_inv_floorHold : Inv wFloorHold := by
  refine ⟨by decide, ?_, ?_, ?_⟩ <;> constructor <;> first | decide | (intro _ _; unfold RampPlanned; decide +kernel)
theorem test_inv_stopping : Inv wStopping := by
  refine ⟨by decide, ?_, ?_, ?_⟩ <;> constructor <;> first | decide | (intro _ _; unfold RampPlanned; decide +kernel)
theorem test_inv_arrived : Inv wArrived := by
  refine ⟨by decide, ?_, ?_, ?_⟩ <;> constructor <;> first | decide | (intro _ _; unfold RampPlanned; decide +kernel)

/-- A no-op, a direct move below the threshold, a ramped one at it, and a speed clamped to the maximum. -/
theorem test_witness_GotoStartsPlannedMoveOrNoop :
    State.reset.cfg.wf = true ∧ State.reset.profile.rampTable.wf = true ∧
    (0#32 = State.reset.motion.position) ∧
    ¬(State.reset.motion.active = true ∨ 1#32 = State.reset.motion.position) ∧
    min 39 State.reset.cfg.rpmMax < State.reset.cfg.rpmDirect ∧
    ¬ min 40 State.reset.cfg.rpmMax < State.reset.cfg.rpmDirect ∧
    min 65535 State.reset.cfg.rpmMax = 300 := by decide
theorem test_witness_StopWritesTargetOnly :
    (restAt 5).motion.active = false ∧
    ¬(wDirect.motion.active = false ∨ wDirect.motion.position = wDirect.motion.target) ∧
    wDirect.profile.rampSteps.toNat = 1 ∧
    ¬(wBrake.motion.active = false ∨ wBrake.motion.position = wBrake.motion.target) ∧
    wBrake.profile.rampSteps.toNat = 8 := by decide
theorem test_witness_ReadyActiveWindowAnswersNoop :
    wArrived.motion.active = true ∧ wArrived.motion.position = wArrived.motion.target := by decide
theorem test_witness_SecondStopSameTarget :
    (run1 .stop wBrake id).isSome = true ∧
    ((after (exec .stop wBrake)).bind fun t => run1 .stop t id).isSome = true := by decide
theorem test_witness_SetposMovesReference :
    (restAt 5).motion.active = false ∧ wDirect.motion.active = true := by decide
theorem test_witness_ReplyEndsOrRetriesAttempt :
    ({ LinkState.idle with phase := .rReply }).phase = .rReply ∧
    crc8 [0x05#8, 0xFF#8, 0x06#8, byteOf 0x20000040 3, byteOf 0x20000040 2, byteOf 0x20000040 1, byteOf 0x20000040 0] =
      0x7E#8 := by decide +kernel

/-- A read that times out, then is answered. -/
def wRead : State :=
  { State.reset with
    cmdQueue := [portWord 0x10#8 (BitVec.ofNat 8 (0x06#7).toNat) 0 0]
    wire := [[], e4, [0x05#8, 0xFF#8, 0x06#8, 0x20#8, 0x00#8, 0x00#8, 0x40#8, 0x7E#8]] }
theorem test_witness_ReadTransactionFollowsProcedure :
    wRead.cfg.wf = true ∧ wRead.link = LinkState.idle ∧ wRead.rsp = none ∧
    wRead.cmdQueue = portWord 0x10#8 (BitVec.ofNat 8 (0x06#7).toNat) 0 0 :: [] ∧
    (readRegister wRead.cfg 0x06#7 2 .timeout wRead.wire).calls ≤ wRead.wire.length ∧
    (readRegister wRead.cfg 0x06#7 2 .timeout wRead.wire).status = .ok := by decide +kernel
/-- A write whose echo is short and whose read-back agrees. -/
def wWrite : State :=
  { State.reset with
    cmdQueue := [portWord 0x11#8 (BitVec.ofNat 8 (0x10#7).toNat) 0 0x00071703#32]
    wire := [[0x05#8], e4, [0x05#8, 0xFF#8, 0x10#8, 0x00#8, 0x07#8, 0x17#8, 0x03#8, 0xF6#8]] }
theorem test_witness_WriteTransactionFollowsProcedure :
    wWrite.cfg.wf = true ∧ wWrite.link = LinkState.idle ∧ wWrite.rsp = none ∧
    wWrite.cmdQueue = portWord 0x11#8 (BitVec.ofNat 8 (0x10#7).toNat) 0 0x00071703#32 :: [] ∧
    (writeRegister wWrite.cfg 0x10#7 0x00071703#32 2 wWrite.wire).calls ≤ wWrite.wire.length ∧
    (writeRegister wWrite.cfg 0x10#7 0x00071703#32 2 wWrite.wire).status = .ok := by decide +kernel
/-- The host's move is next in `s`. -/
def hostNext (s : State) : State := { s with turns := [.host] }
theorem test_inv_read : Inv (hostNext wRead) := by
  refine ⟨by decide, ?_, ?_, ?_⟩ <;> constructor <;> first | decide | (intro h; exact absurd h (by decide))
theorem test_inv_write : Inv (hostNext wWrite) := by
  refine ⟨by decide, ?_, ?_, ?_⟩ <;> constructor <;> first | decide | (intro h; exact absurd h (by decide))
theorem test_witness_TransactionsAreBounded :
    (Inv (hostNext wRead) ∧ Accepts (hostNext wRead) (.rdreg 0x06#7)) ∧
    (Inv (hostNext wWrite) ∧ Accepts (hostNext wWrite) (.wrreg 0x10#7 0x00071703)) :=
  ⟨⟨test_inv_read, _, _, _, rfl, by decide, by decide, rfl, by decide⟩,
    ⟨test_inv_write, _, _, _, rfl, by decide, by decide, rfl, by decide⟩⟩

/-- A write about to send its first request, with every LINK step still before it. -/
def wFirst : State :=
  { State.reset with
    link := { LinkState.idle with
      phase := .wFlushSend, isWrite := true, addr := 1, data := 2, txFrame := writeRequest Config.default 1 2 } }
/-- A read that waits for the reply of its last attempt. -/
def wLast : State := { State.reset with link := { LinkState.idle with phase := .rReply, readAttempts := 1 }, wire := [[]] }
theorem test_inv_first : Inv wFirst := by
  refine ⟨by decide, ?_, ?_, ?_⟩ <;> constructor <;>
    first | (intro h; exact absurd h (by decide)) | (intro _; rfl) | decide
theorem test_inv_last : Inv wLast := by
  refine ⟨by decide, ?_, ?_, ?_⟩ <;> constructor <;> first | decide | (intro h; exact absurd h (by decide))
/-- A write about to offer its response. -/
def wRespond : State :=
  { State.reset with link := { LinkState.idle with phase := .respond, isWrite := true, status := .verifyFailed } }
theorem test_inv_respond : Inv wRespond := by
  refine ⟨by decide, ?_, ?_, ?_⟩ <;> constructor <;> first | decide | (intro h; exact absurd h (by decide))
/-- The greatest distance, the least one, and a receive call whose time is over or is not; moves that go on from there. -/
theorem test_witness_LinkStepsComeCloserToResponse :
    (Inv wFirst ∧ linkRank wFirst.link = 19 ∧ waitLimit wFirst.cfg wFirst.link.phase ≤ wFirst.link.waitUs ∧
      (step1 (scheduled wFirst (.link :: [])) (fun t => linkRank t.link)) = some 18 ∧
      (step1 (scheduled wFirst (.micro :: [])) (fun t => linkRank t.link)) = some 19) ∧
    (Inv wLast ∧ wLast.link.isWrite = false ∧ linkRank wLast.link = 2 ∧
      (step1 (scheduled wLast (.link :: [])) (fun t => linkRank t.link)) = some 1 ∧
      (step1 (scheduled wLast (.linkTimed :: [])) (fun t => linkRank t.link)) = some 2) ∧
    (let s := { wLast with link := { wLast.link with waitUs := 20000 } }
     waitLimit s.cfg s.link.phase ≤ s.link.waitUs ∧
      (step1 (scheduled s (.linkTimed :: [])) (fun t => linkRank t.link)) = some 1) ∧
    (Inv wRespond ∧ linkRank wRespond.link = 1 ∧
      (step1 (scheduled wRespond (.linkTimed :: [])) (fun t => linkRank t.link)) = some 0) :=
  ⟨⟨test_inv_first, by decide, by decide, by decide +kernel, by decide⟩,
    ⟨test_inv_last, by decide, by decide, by decide, by decide⟩, by decide, test_inv_respond, by decide, by decide⟩
/-- A call that waits on, one whose time is over, one whose bytes are there with one to spare, and a delay. -/
theorem test_witness_TimedReceiveEndsByBytesOrTime :
    (let s := { State.reset with link := { LinkState.idle with phase := .rEcho, rx := [1#8, 2#8, 3#8], waitUs := 19999 }, wire := [[]] }
     s.cfg.wf = true ∧ s.link.phase = .rEcho ∧ s.link.rx.length ≤ s.link.phase.expects ∧ s.wire = [] :: [] ∧
      (s.link.rx ++ []).length < s.link.phase.expects ∧ s.link.waitUs < s.cfg.rxTimeoutMs * 1000) ∧
    (let s := { State.reset with link := { LinkState.idle with phase := .wEcho, waitUs := 20000 }, wire := [[]] }
     s.link.phase = .wEcho ∧ s.wire = [] :: [] ∧ ¬ s.link.waitUs < s.cfg.rxTimeoutMs * 1000) ∧
    (let s := { State.reset with link := { LinkState.idle with phase := .rEcho, rx := [1#8, 2#8, 3#8] }, wire := [[4#8, 5#8]] }
     s.link.phase = .rEcho ∧ s.wire = [4#8, 5#8] :: [] ∧ ((s.link.rx ++ [4#8, 5#8]).take 4).length = s.link.phase.expects) ∧
    (let s := { State.reset with link := { LinkState.idle with phase := .wDelay, waitUs := 5000 } }
     s.cfg.wf = true ∧ s.link.phase = .wDelay ∧ ¬ s.link.waitUs < s.cfg.verifyDelayMs * 1000) := by decide
theorem test_witness_SingleByteCorruptionDetected :
    frameValid e4 = true ∧ 3 < e4.length ∧ e4.getD 3 0 ≠ 0x6E#8 ∧ e4.getD 0 0 ≠ 0x04#8 := by decide +kernel

theorem test_witness_DecodeOfEncode :
    (Instr.getramp 63).wf Config.default = true ∧ (Instr.frameReadReq 0x05 0x00 0x06 0x6F).wf Config.default = true := by
  decide +kernel
theorem test_witness_EncodeOfDecode :
    decode Config.default (.command 0x107F000000000000#64) = .ok (.rdreg 0x7F#7) ∧
    decode Config.default (.sent e4) = .ok (.frameReadReq 0x05 0x00 0x06#7 0x6F) := by decide
theorem test_witness_TableRowsMatchDecoder :
    decodeCommand Config.default 0x0C0000000000003F#64 = .ok (.getramp 63) ∧
    tableRow (.getramp 63) = some (0x0C00000000000000, 0xFFFFFFFFFFFFFFC0) ∧
    0x0C0000000000003F#64 &&& 0xFFFFFFFFFFFFFFC0 = 0x0C00000000000000 := by decide
theorem test_witness_IllegalWordsAreAnswered :
    LegalWord Config.default 0x0C#8 0 0 63 ∧ ¬ LegalWord Config.default 0x0C#8 0 0 64 ∧
    LegalWord Config.default 0x10#8 0x7F 0 0 ∧ ¬ LegalWord Config.default 0x10#8 0x80 0 0 ∧
    LegalWord Config.default 0x05#8 0 0 1 ∧ ¬ LegalWord Config.default 0x05#8 0 0 2 ∧
    ¬ LegalWord Config.default 0x12#8 0 0 0 := by simp [LegalWord, Config.default]
theorem test_witness_IllegalWordsAreAnswered_step :
    (presents (portWord 0x12#8 0 0 0)).cfg.wf = true ∧ (presents (portWord 0x12#8 0 0 0)).rsp = none ∧
    (presents (portWord 0x12#8 0 0 0)).link.phase = .idle ∧
    (presents (portWord 0x12#8 0 0 0)).cmdQueue = portWord 0x12#8 0 0 0 :: [] := by decide
theorem test_witness_StepRunsDecodedCommand :
    wRead.cfg.wf = true ∧ wRead.rsp = none ∧ wRead.link.phase = .idle ∧
    wRead.cmdQueue = 0x1006000000000000#64 :: [] ∧ decodeCommand wRead.cfg 0x1006000000000000#64 = .ok (.rdreg 0x06#7) := by
  decide +kernel
theorem test_witness_StepRunsDecodedFrame :
    (let s := { State.reset with link := { LinkState.idle with phase := .rFlushSend, txFrame := e4 } }
     s.cfg.wf = true ∧ (s.link.phase = .rFlushSend ∨ s.link.phase = .wFlushSend) ∧
      decode s.cfg (.sent s.link.txFrame) = .ok (.frameReadReq 0x05 0x00 0x06#7 0x6F)) ∧
    (let s := { State.reset with link := { LinkState.idle with phase := .wFlushSend, txFrame := writeRequest Config.default 1 2 } }
     s.cfg.wf = true ∧ (s.link.phase = .rFlushSend ∨ s.link.phase = .wFlushSend) ∧
      decode s.cfg (.sent s.link.txFrame) = .ok (.frameWriteReq 0x05 0x00 1 2 (writeReqCrc Config.default 1 2))) ∧
    (let a := [0x05#8, 0xFF#8, 0x06#8, 0x20#8, 0x00#8, 0x00#8, 0x40#8, 0x7E#8]
     let s := { State.reset with link := { LinkState.idle with phase := .rReply }, wire := [a] }
     s.cfg.wf = true ∧ s.link.phase = .rReply ∧ s.wire = a :: [] ∧
      decode s.cfg (.received ((s.link.rx ++ a).take 8)) = .ok (.frameReply 0x05 0xFF 0x06 0x20000040 0x7E)) ∧
    (let a := [0x00#8, 0x40#8, 0x7E#8, 0x99#8]
     let s := { State.reset with
       link := { LinkState.idle with phase := .rReply, rx := [0x05#8, 0xFF#8, 0x06#8, 0x20#8, 0x00#8] }, wire := [a] }
     s.cfg.wf = true ∧ s.link.phase = .rReply ∧ s.wire = a :: [] ∧ s.link.rx.length ≤ 8 ∧
      decode s.cfg (.received ((s.link.rx ++ a).take 8)) = .ok (.frameReply 0x05 0xFF 0x06 0x20000040 0x7E)) := by
  decide +kernel
theorem test_witness_StepRunsPlacedWord :
    State.reset.cfg.wf = true ∧ State.reset.cfg.capacity = Config.default.capacity ∧
    decodeTableWord 64 0x0200000000000000 = some .stop ∧
    decodeTableWord 32 0x0500066F = some (.frameReadReq 0x05 0x00 0x06#7 0x6F) ∧
    decodeTableWord 64 0x05FF06200000407E = some (.frameReply 0x05 0xFF 0x06 0x20000040 0x7E) := by decide
/-- A transaction under way; one in RESPOND; a response offered. -/
theorem test_witness_PortWaitsAndHandsOver :
    (let s := { State.reset with link := { LinkState.idle with phase := .wDelay } }
     s.cfg.wf = true ∧ s.rsp = none ∧ s.link.phase ≠ .idle) ∧
    (let s := { State.reset with link := { LinkState.idle with phase := .respond } }
     s.cfg.wf = true ∧ s.rsp = none ∧ s.link.phase ≠ .idle) ∧
    (let s := { State.reset with rsp := some 7#64 }
     s.cfg.wf = true ∧ s.rsp = some 7#64) := by decide
theorem test_witness_RespondOffersAndGoesIdle :
    (let s := { State.reset with link := { LinkState.idle with phase := .respond } }
     s.cfg.wf = true ∧ s.link.phase = .respond) ∧ State.reset.cfg.wf = true ∧ State.reset.link.phase = .idle := by decide
theorem test_witness_ResetAbandonsEverything : wBrake.cfg.wf = true := by decide
theorem test_witness_EveryStepKeepsInvariants :
    Inv wArrived ∧ (step1 { wArrived with turns := [.tick] } id).isSome = true := ⟨test_inv_arrived, by decide⟩
theorem test_witness_EveryStepGoesOn : Inv wBrake := test_inv_brake
theorem test_witness_RestAtTargetIsKept :
    (wStopping.motion.active = false → wStopping.motion.position = wStopping.motion.target) ∧
    (step1 { wStopping with turns := [.tick] } (·.motion.active)) = some false := by decide
theorem test_witness_PulseStepsOrRests_alarm :
    (let t := { Timers.reset with tcnt := 65534 }
     t.tcnt.toNat + 1 ≥ t.periodAct.toNat) := by decide
/-- At the target; stepping forward onto the greatest position; stepping in reverse onto the least. -/
theorem test_witness_PulseStepsOrRests :
    (restAt 5).cfg.wf = true ∧ (restAt 5).motion.position = (restAt 5).motion.target ∧
    (let s := moving 2147483646 2147483647 .forward 20 1 0
     s.cfg.wf = true ∧ s.motion.position ≠ s.motion.target ∧ s.motion.position.toInt < 2147483647) ∧
    (wReverse.cfg.wf = true ∧ wReverse.motion.position ≠ wReverse.motion.target ∧
      wReverse.motion.direction = .reverse ∧ -2147483648 < wReverse.motion.position.toInt) := by decide
theorem test_witness_PulseTakesOneOffRemaining :
    MotionInv wReverse ∧ wReverse.motion.position ≠ wReverse.motion.target := ⟨test_inv_reverse.motion, by decide⟩
theorem test_witness_PulsesReachTarget : Inv wRampUp ∧ remaining wRampUp = 1001 := ⟨test_inv_rampUp, by decide⟩
/-- A direct move whose shortest possible period runs, right after an alarm. -/
def wShort : State := { wDirect with timers := { wDirect.timers with period := 10, periodAct := 10 } }
theorem test_inv_short : Inv wShort := by
  refine ⟨by decide, ?_, ?_, ?_⟩ <;> constructor <;> first | decide | (intro _ h; exact absurd h (by decide))
/-- The pulse comes with the timer at 0, and the next alarm 9 microseconds later, the soonest there is. -/
theorem test_witness_StepPinHighForItsWidth :
    Inv wShort ∧ wShort.motion.position ≠ wShort.motion.target ∧ wShort.timers.tcnt.toNat = 0 ∧
    alarmDue ((countMicro wShort.cfg)^[9] (pulse wShort).timers) = true ∧
    alarmDue ((countMicro wShort.cfg)^[8] (pulse wShort).timers) = false := ⟨test_inv_short, by decide⟩
theorem test_witness_PeriodBoundsAndOrder :
    (300 ≤ 301 ∧ 65535 ≤ 65536) ∧ Config.default.wf = true ∧ 300 ≤ Config.default.rpmMax := by decide
theorem test_witness_RampIsMonotone :
    Config.default.wf = true ∧ Config.default.rpmDirect ≤ 40 ∧ 40 ≤ Config.default.rpmMax ∧ 0 ≤ 7 ∧
    7 < rampStepsOf Config.default 40 ∧ State.reset.cfg = Config.default ∧ State.reset.profile.rampTable.wf = true := by
  decide
theorem test_witness_TickFollowsItsPhase_due :
    (let t := { Timers.reset with tickCnt := 9999 }
     t.tickCnt.toNat + 1 ≥ Config.default.tickUs) := by decide
/-- One state for each branch of TICK, at the bounds of its condition. -/
theorem test_witness_TickFollowsItsPhase :
    (Inv (restAt 5) ∧ movePhase (restAt 5) = .idle) ∧
    (Inv wDirect ∧ movePhase wDirect = .direct ∧ remaining wDirect ≠ 0) ∧
    (Inv wDirectDone ∧ movePhase wDirectDone = .direct ∧ remaining wDirectDone = 0) ∧
    (Inv wRampUp ∧ movePhase wRampUp = .rampUp) ∧ (Inv wCruise ∧ movePhase wCruise = .cruise) ∧
    (Inv wBrake ∧ movePhase wBrake = .brake) ∧ (Inv wFloorHold ∧ movePhase wFloorHold = .floorHold) ∧
    (Inv wStopping ∧ movePhase wStopping = .stopping) :=
  ⟨⟨test_inv_rest, by decide⟩, ⟨test_inv_direct, by decide⟩, ⟨test_inv_directDone, by decide⟩,
    ⟨test_inv_rampUp, by decide⟩, ⟨test_inv_cruise, by decide⟩, ⟨test_inv_brake, by decide⟩,
    ⟨test_inv_floorHold, by decide⟩, ⟨test_inv_stopping, by decide⟩⟩
theorem test_witness_PhaseNamesCoverMoves :
    (wBrake.motion.active = true → 1 ≤ wBrake.profile.rampSteps.toNat) ∧ wBrake.motion.active = true := by decide
theorem test_witness_TicksCompleteArrivedMove :
    Inv wArrived ∧ wArrived.motion.active = true ∧ wArrived.motion.position = wArrived.motion.target ∧
    wArrived.profile.rampIndex.toNat = 7 := ⟨test_inv_arrived, by decide⟩
theorem test_witness_ShortMoveStaysAtFloor :
    Inv wFloorHold ∧ wFloorHold.motion.active = true ∧ wFloorHold.profile.rampSteps.toNat ≠ 1 ∧
    wFloorHold.profile.rampIndex.toNat = 0 ∧ remaining wFloorHold ≤ wFloorHold.motion.speedRpm.toNat * 25 ∧
    remaining wFloorHold ≠ 0 := ⟨test_inv_floorHold, by decide⟩
/-- R38, R112: the wait counter counts in a receive call, and not in a sending phase. -/
theorem test_wait_counts :
    turns [.micro] { State.reset with link := { LinkState.idle with phase := .wDelay, waitUs := 7 } } (·.link.waitUs) = some 8 ∧
    turns [.micro] { State.reset with link := { LinkState.idle with phase := .wFlushSend, waitUs := 7 } } (·.link.waitUs) =
      some 7 := by decide
/-- A microsecond that raises both events, and one that raises neither. -/
theorem test_witness_MicrosecondCountsTimers :
    (let s := { State.reset with timers := { Timers.reset with tcnt := 65534, tickCnt := 9999 } }
     s.cfg.wf = true ∧ s.timers.tcnt.toNat + 1 ≥ s.timers.periodAct.toNat ∧ s.timers.tickCnt.toNat + 1 ≥ s.cfg.tickUs) ∧
    (let s := { State.reset with timers := { Timers.reset with tcnt := 65533, tickCnt := 9998 } }
     s.cfg.wf = true ∧ ¬ s.timers.tcnt.toNat + 1 ≥ s.timers.periodAct.toNat ∧
      ¬ s.timers.tickCnt.toNat + 1 ≥ s.cfg.tickUs) := by decide
theorem test_witness_AlarmsComeWhenPeriodCompletes :
    Timers.reset.tcnt.toNat < Timers.reset.periodAct.toNat ∧
    Timers.reset.tcnt.toNat + 65534 < Timers.reset.periodAct.toNat := by decide
theorem test_witness_TicksComeWhenIntervalCompletes :
    Timers.reset.tickCnt.toNat < Config.default.tickUs ∧ Config.default.tickUs ≤ 2 ^ 32 ∧
    Timers.reset.tickCnt.toNat + 9999 < Config.default.tickUs := by decide
theorem test_witness_EventsOfOneMicrosecondInOrder : State.reset.cfg.wf = true ∧ State.reset.turns = [] := by decide
/-- A LINK step and an arriving byte that go on, a PULSE and a TICK that go on. -/
theorem test_witness_LinkAndMotionAreIsolated :
    (step1 (scheduled { wBrake with link := { LinkState.idle with phase := .wDelay } } (.link :: [])) id).isSome = true ∧
    (step1 (scheduled wBrake (.rxByte 0xAA#8 :: [])) id).isSome = true ∧
    (step1 (scheduled wBrake (.pulse :: [])) id).isSome = true ∧
    (step1 (scheduled wBrake (.tick :: [])) id).isSome = true := by decide +kernel
/-- A step that changes the target and the direction, with no reset scheduled. -/
theorem test_witness_TargetAndDirectionWriters :
    (step1 (presents 0x01000014FFFFFF9C#64) (fun t => (t.motion.target, t.motion.direction))) =
      some (BitVec.ofInt 32 (-100), .reverse) ∧
    (presents 0x01000014FFFFFF9C#64).turns = [.host] := by decide
/-- A step that changes the position by a pulse, and one that does by `SETPOS`. -/
theorem test_witness_PositionWriters :
    (step1 { wDirect with turns := [.pulse] } (·.motion.position)) = some 4 ∧
    (step1 (presents 0x04000000000003E8#64) (·.motion.position)) = some 1000 := by decide
theorem test_witness_DirPinChangesOnlyAtRest :
    (step1 (presents 0x0500000000000001#64) dirPin) = some false ∧ dirPin State.reset = true := by decide

end Sys2Proof.Tests
end

section
/-! What a move can do, said once for each agent: the fields that the two units leave alone, and the effect of a host's
move, of a receive call that ends, and of a whole step on the motion fields. -/

namespace Sys2Proof.Machine

open Sys2Proof.Statements

/-- `t` is `s` but for the fields of the Register Link, WIRE and the response on offer. -/
structure LinkOnly (s t : State) : Prop where
  cfg : t.cfg = s.cfg
  motion : t.motion = s.motion
  profile : t.profile = s.profile
  timers : t.timers = s.timers
  pulseLog : t.pulseLog = s.pulseLog
  rspLog : t.rspLog = s.rspLog
  cmdQueue : t.cmdQueue = s.cmdQueue
  turns : t.turns = s.turns

theorem LinkOnly.refl (s : State) : LinkOnly s s := by constructor <;> rfl

theorem LinkOnly.trans {s t u : State} (h : LinkOnly s t) (h' : LinkOnly t u) : LinkOnly s u where
  cfg := h'.cfg.trans h.cfg
  motion := h'.motion.trans h.motion
  profile := h'.profile.trans h.profile
  timers := h'.timers.trans h.timers
  pulseLog := h'.pulseLog.trans h.pulseLog
  rspLog := h'.rspLog.trans h.rspLog
  cmdQueue := h'.cmdQueue.trans h.cmdQueue
  turns := h'.turns.trans h.turns

/-- `t` is `s` but for the motion, profile and timer fields and the pulse log. -/
structure MotionOnly (s t : State) : Prop where
  cfg : t.cfg = s.cfg
  link : t.link = s.link
  rxHeld : t.rxHeld = s.rxHeld
  txLog : t.txLog = s.txLog
  rsp : t.rsp = s.rsp
  rspLog : t.rspLog = s.rspLog
  cmdQueue : t.cmdQueue = s.cmdQueue
  wire : t.wire = s.wire
  wireCalls : t.wireCalls = s.wireCalls
  turns : t.turns = s.turns

theorem MotionOnly.refl (s : State) : MotionOnly s s := by constructor <;> rfl

/-! The Register Link writes link fields only (R121). -/

theorem wireNext_linkOnly (s : State) : LinkOnly s (wireNext s) := by
  obtain ⟨as, n, e⟩ := wireNext_eq s
  rw [e]
  constructor <;> rfl

@[simp] theorem wireNext_link (s : State) : (wireNext s).link = s.link := by
  obtain ⟨as, n, e⟩ := wireNext_eq s
  rw [e]

@[simp] theorem wireNext_rsp (s : State) : (wireNext s).rsp = s.rsp := by
  obtain ⟨as, n, e⟩ := wireNext_eq s
  rw [e]

theorem arrive_linkOnly (b : Byte) (s : State) : LinkOnly s (arrive b s) := by
  rcases arrive_cases b s with ⟨_, e⟩ | ⟨_, e⟩ <;> rw [e] <;> constructor <;> rfl

theorem arriveAll_linkOnly (bs : List Byte) (s : State) : LinkOnly s (arriveAll bs s) := by
  obtain ⟨rx, held, e, _⟩ := arriveAll_eq bs s
  rw [e]
  constructor <;> rfl

theorem finishRead_linkOnly (st : Status) (v : Word) (s : State) : LinkOnly s (finishRead st v s) := by
  obtain ⟨l, e⟩ := finishRead_eq st v s
  rw [e]
  constructor <;> rfl

theorem failRead_linkOnly (e : Status) (s : State) : LinkOnly s (failRead e s) := by
  obtain ⟨l, h⟩ := failRead_eq e s
  rw [h]
  constructor <;> rfl

/-- A frame that is sent is one of the two requests (R89). -/
theorem decodeSent_cases {f : Frame} {i : Instr} (h : decodeSent f = .ok i) :
    (∃ sync node addr crc, i = .frameReadReq sync node addr crc) ∨
    (∃ sync node addr value crc, i = .frameWriteReq sync node addr value crc) := by
  unfold decodeSent at h
  split at h
  · split at h
    · cases h
    · cases h
      exact .inl ⟨_, _, _, _, rfl⟩
  · split at h
    · cases h
      exact .inr ⟨_, _, _, _, _, rfl⟩
    · cases h
  · cases h

/-- Whatever frame stands in a sending phase, sending it writes link fields only. -/
theorem sendFrame_linkOnly {s t : State} (h : sendFrame s = .next t) : LinkOnly s t := by
  unfold sendFrame at h
  split at h
  · rename_i i hi
    rcases decodeSent_cases hi with ⟨_, _, _, _, rfl⟩ | ⟨_, _, _, _, _, rfl⟩ <;> cases h <;> constructor <;> rfl
  · cases h

/-- Everything the end of a receive call can do (R116, R117). -/
inductive ReceiveEffect (s : State) : State → Prop where
  /-- No call was open. -/
  | rests : ReceiveEffect s s
  /-- The read attempt has failed. -/
  | fails (e : Status) (hp : s.link.phase = .rEcho ∨ s.link.phase = .rReply)
      (he : e = .timeout ∨ e = .shortRead ∨ e = .crc) : ReceiveEffect s (failRead e s)
  /-- The echo of a read request is complete. -/
  | awaitsReply (hp : s.link.phase = .rEcho) : ReceiveEffect s (openReceive .rReply s)
  /-- The reply is valid. -/
  | reads (v : Word) (hp : s.link.phase = .rReply) : ReceiveEffect s (finishRead .ok v s)
  /-- The echo of a write request is over. -/
  | echoed (hp : s.link.phase = .wEcho) : ReceiveEffect s (writeEchoDone s)

theorem receiveDone_effect (got : List Byte) (s : State) :
    ∃ t, receiveDone got s = .next t ∧ ReceiveEffect s t := by
  unfold receiveDone
  cases hp : s.link.phase with
  | rEcho =>
    rcases echoDone_cases got s with ⟨e, he, h⟩ | h <;> simp only [h]
    · exact ⟨_, rfl, .fails e (.inl hp) (he.imp_right .inl)⟩
    · exact ⟨_, rfl, .awaitsReply hp⟩
  | rReply =>
    rcases replyDone_cases got hp with ⟨v, h⟩ | ⟨e, he, h⟩
    · exact ⟨_, h, .reads v hp⟩
    · exact ⟨_, h, .fails e (.inr hp) he⟩
  | wEcho => exact ⟨_, rfl, .echoed hp⟩
  | idle => exact ⟨_, rfl, .rests⟩
  | rFlushSend => exact ⟨_, rfl, .rests⟩
  | wFlushSend => exact ⟨_, rfl, .rests⟩
  | wDelay => exact ⟨_, rfl, .rests⟩
  | respond => exact ⟨_, rfl, .rests⟩

theorem ReceiveEffect.linkOnly {s t : State} (h : ReceiveEffect s t) : LinkOnly s t := by
  cases h with
  | rests => exact .refl s
  | fails e _ _ => exact failRead_linkOnly e s
  | awaitsReply _ => constructor <;> rfl
  | reads v _ => exact finishRead_linkOnly .ok v s
  | echoed _ => constructor <;> rfl

/-- A receive call of the event level ends with WIRE's answer. -/
theorem receiveCall_effect (s : State) : ∃ t, receiveCall s = .next t ∧ ReceiveEffect (wireNext s) t :=
  receiveDone_effect _ _

/-- A receive call of the timed level takes WIRE's bytes, then waits on or ends. -/
theorem receiveMicro_effect (s : State) :
    ∃ t, receiveMicro s = .next t ∧ ReceiveEffect (arriveAll (wireAnswer s) (wireNext s)) t := by
  unfold receiveMicro
  dsimp only
  split
  · exact receiveDone_effect _ _
  · exact ⟨_, rfl, .rests⟩

theorem receiveCall_linkOnly {s t : State} (h : receiveCall s = .next t) : LinkOnly s t := by
  obtain ⟨t', h', he⟩ := receiveCall_effect s
  obtain rfl := next_inj (h'.symm.trans h)
  exact (wireNext_linkOnly s).trans he.linkOnly

theorem receiveMicro_linkOnly {s t : State} (h : receiveMicro s = .next t) : LinkOnly s t := by
  obtain ⟨t', h', he⟩ := receiveMicro_effect s
  obtain rfl := next_inj (h'.symm.trans h)
  exact ((wireNext_linkOnly s).trans (arriveAll_linkOnly _ _)).trans he.linkOnly

/-- A LINK step of the event level writes link fields only, in any state (R121). -/
theorem linkStep_linkOnly {s t : State} (h : linkStep s = .next t) : LinkOnly s t := by
  cases hp : s.link.phase <;> simp only [linkStep, hp] at h
  case idle => cases h; exact .refl s
  case rFlushSend => exact sendFrame_linkOnly h
  case rEcho => exact receiveCall_linkOnly h
  case rReply => exact receiveCall_linkOnly h
  case wFlushSend => exact sendFrame_linkOnly h
  case wEcho => exact receiveCall_linkOnly h
  case wDelay => cases h; constructor <;> rfl
  case respond => cases h; constructor <;> rfl

/-- A LINK step of the timed level writes link fields only, in any state (R121). -/
theorem linkTimed_linkOnly {s t : State} (h : linkTimed s = .next t) : LinkOnly s t := by
  cases hp : s.link.phase <;> simp only [linkTimed, hp] at h
  case idle => cases h; exact .refl s
  case rFlushSend => exact sendFrame_linkOnly h
  case rEcho => exact receiveMicro_linkOnly h
  case rReply => exact receiveMicro_linkOnly h
  case wFlushSend => exact sendFrame_linkOnly h
  case wEcho => exact receiveMicro_linkOnly h
  case wDelay =>
    split at h
    · cases h; constructor <;> rfl
    · cases h; exact .refl s
  case respond => cases h; constructor <;> rfl

/-! PULSE and TICK write motion, profile and timer fields only (R121). -/

theorem pulse_motionOnly (s : State) : MotionOnly s (pulse s) := by
  rcases pulse_cases s with ⟨_, e⟩ | ⟨_, e⟩ <;> rw [e] <;> constructor <;> rfl

theorem selectLevel_motionOnly {i : Nat} {s t : State} (h : selectLevel i s = .next t) : MotionOnly s t := by
  rcases selectLevel_cases i s with ⟨_, e⟩ | ⟨_, e⟩ <;> rw [e] at h <;> cases h
  constructor <;> rfl

theorem tick_motionOnly {s t : State} (h : tick s = .next t) : MotionOnly s t := by
  rcases tick_next_cases h with ⟨rfl, _⟩ | ⟨rfl, _⟩ | ⟨rfl, _⟩ | ⟨_, _, i, hi, _⟩
  · exact .refl _
  · constructor <;> rfl
  · constructor <;> rfl
  · exact selectLevel_motionOnly hi

/-- TICK leaves the motion fields and the pulse log alone, unless it ends a move that has arrived (R158, R159). -/
theorem tick_motion_cases {s t : State} (h : tick s = .next t) :
    t.pulseLog = s.pulseLog ∧
    (t.motion = s.motion ∨
      remaining s = 0 ∧ t.motion = { s.motion with active := false, speedRpm := 0 }) := by
  rcases tick_next_cases h with ⟨rfl, _⟩ | ⟨rfl, _, hr, _⟩ | ⟨rfl, _⟩ | ⟨_, _, i, hi, _⟩
  · exact ⟨rfl, .inl rfl⟩
  · exact ⟨rfl, .inr ⟨hr, rfl⟩⟩
  · exact ⟨rfl, .inl rfl⟩
  · rcases selectLevel_cases i s with ⟨_, e⟩ | ⟨_, e⟩ <;> rw [e] at hi <;> cases hi
    exact ⟨rfl, .inl rfl⟩

/-- Nothing remains exactly at the target (R157). -/
theorem remaining_eq_zero_iff (s : State) : remaining s = 0 ↔ s.motion.position = s.motion.target := by
  rw [remaining, Int.natAbs_eq_zero, sub_eq_zero, BitVec.toInt_inj, eq_comm]

/-! What an accepted `GOTO` writes (R170, R213). -/

theorem plan_motionOnly (d r : Nat) (s : State) : MotionOnly s (plan d r s) := by
  rcases plan_cases d r s with ⟨_, e⟩ | ⟨_, e⟩ <;> rw [e] <;> constructor <;> rfl

theorem plan_pulseLog (d r : Nat) (s : State) : (plan d r s).pulseLog = s.pulseLog := by
  rcases plan_cases d r s with ⟨_, e⟩ | ⟨_, e⟩ <;> rw [e]

theorem startMove_motionOnly (a : Word) (r : Nat) (s : State) : MotionOnly s (startMove a r s) := by
  have h := plan_motionOnly (a.toInt - s.motion.position.toInt).natAbs r s
  exact ⟨h.cfg, h.link, h.rxHeld, h.txLog, h.rsp, h.rspLog, h.cmdQueue, h.wire, h.wireCalls, h.turns⟩

@[simp] theorem startMove_pulseLog (a : Word) (r : Nat) (s : State) : (startMove a r s).pulseLog = s.pulseLog :=
  plan_pulseLog _ r s

@[simp] theorem startMove_motion (a : Word) (r : Nat) (s : State) :
    (startMove a r s).motion =
      { s.motion with
        direction := directionTo s.motion.position a, target := a, speedRpm := BitVec.ofNat 16 r, active := true } := rfl

/-- Everything a command of the port can do (R170 to R174, R190 to R195, R116 to R119). -/
inductive CommandEffect (s : State) : Instr → State → Prop where
  /-- An answer and nothing else: the status commands, and every no-op. -/
  | answers (i : Instr) (op : Byte) (st : Status) (aux : U16) (v : Word) : CommandEffect s i (s.answer op st aux v)
  | goes (a : Word) (rpm : U16) (hrest : s.motion.active = false) (hne : a ≠ s.motion.position) :
      CommandEffect s (.goto a rpm) ((startMove a (clampRpm s.cfg rpm) s).answer opGoto .ok 0 0)
  | stops (hact : s.motion.active = true) (hne : s.motion.position ≠ s.motion.target) :
      CommandEffect s .stop
        (State.answer { s with motion := { s.motion with target := stopTarget s } } opStop .ok 0 0)
  | setsPosition (p : Word) (hrest : s.motion.active = false) :
      CommandEffect s (.setpos p)
        (State.answer { s with motion := { s.motion with position := p, target := p } } opSetpos .ok 0 0)
  | setsInvert (b : Bool) (hrest : s.motion.active = false) :
      CommandEffect s (.setinv b)
        (State.answer { s with motion := { s.motion with invert := b } } opSetinv .ok 0 0)
  | startsRead (addr : BitVec 7) :
      CommandEffect s (.rdreg addr) (beginRead { s with link := { LinkState.idle with addr := addr } })
  | startsWrite (addr : BitVec 7) (v : Word) :
      CommandEffect s (.wrreg addr v)
        (beginWriteAttempt { s with link := { LinkState.idle with isWrite := true, addr := addr, data := v } })

/-- The instruction is a command of the port, no frame. -/
def IsCommand (i : Instr) : Prop := ∃ w, encode i = .command w

theorem isCommand_of_decodePlain {w : Word64} {i j : Instr} (hi : IsCommand i) (h : decodePlain w i = .ok j) :
    IsCommand j := by
  unfold decodePlain at h
  split at h
  · cases h
    exact hi
  · cases h

theorem isCommand_of_decodeGoto {w : Word64} {i : Instr} (h : decodeGoto w = .ok i) : IsCommand i := by
  unfold decodeGoto at h
  split at h
  · cases h
    exact ⟨_, rfl⟩
  · cases h

theorem isCommand_of_decodeSetpos {w : Word64} {i : Instr} (h : decodeSetpos w = .ok i) : IsCommand i := by
  unfold decodeSetpos at h
  split at h
  · cases h
    exact ⟨_, rfl⟩
  · cases h

theorem isCommand_of_decodeSetinv {w : Word64} {i : Instr} (h : decodeSetinv w = .ok i) : IsCommand i := by
  unfold decodeSetinv at h
  split at h
  · split at h <;> cases h
    exact ⟨_, rfl⟩
  · cases h

theorem isCommand_of_decodeGetramp {c : Config} {w : Word64} {i : Instr} (h : decodeGetramp c w = .ok i) :
    IsCommand i := by
  unfold decodeGetramp at h
  split at h
  · split at h <;> cases h
    exact ⟨_, rfl⟩
  · cases h

theorem isCommand_of_decodeRdreg {w : Word64} {i : Instr} (h : decodeRdreg w = .ok i) : IsCommand i := by
  unfold decodeRdreg at h
  split at h
  · split at h <;> cases h
    exact ⟨_, rfl⟩
  · cases h

theorem isCommand_of_decodeWrreg {w : Word64} {i : Instr} (h : decodeWrreg w = .ok i) : IsCommand i := by
  unfold decodeWrreg at h
  split at h
  · split at h <;> cases h
    exact ⟨_, rfl⟩
  · cases h

/-- The port's decoder reads commands only. -/
theorem isCommand_of_decodeCommand {c : Config} {w : Word64} {i : Instr} (h : decodeCommand c w = .ok i) :
    IsCommand i := by
  rcases decodeCommand_cases c w with ⟨_, e⟩ | ⟨_, e⟩ | ⟨_, e⟩ | ⟨_, e⟩ | ⟨_, e⟩ | ⟨_, e⟩ | ⟨_, e⟩ | ⟨_, e⟩ | ⟨_, e⟩ |
    ⟨_, e⟩ | ⟨_, e⟩ | ⟨_, e⟩ | ⟨_, e⟩ | ⟨_, e⟩ <;> rw [e] at h
  · exact isCommand_of_decodePlain ⟨_, rfl⟩ h
  · exact isCommand_of_decodeGoto h
  · exact isCommand_of_decodePlain ⟨_, rfl⟩ h
  · exact isCommand_of_decodePlain ⟨_, rfl⟩ h
  · exact isCommand_of_decodeSetpos h
  · exact isCommand_of_decodeSetinv h
  · exact isCommand_of_decodePlain ⟨_, rfl⟩ h
  · exact isCommand_of_decodePlain ⟨_, rfl⟩ h
  · exact isCommand_of_decodePlain ⟨_, rfl⟩ h
  · exact isCommand_of_decodePlain ⟨_, rfl⟩ h
  · exact isCommand_of_decodeGetramp h
  · exact isCommand_of_decodeRdreg h
  · exact isCommand_of_decodeWrreg h
  · cases h

/-- A command always goes on, with one of the effects (R200). -/
theorem exec_command_effect {i : Instr} (hi : IsCommand i) (s : State) :
    ∃ t, exec i s = .next t ∧ CommandEffect s i t := by
  cases i with
  | nop => exact ⟨_, rfl, .answers ..⟩
  | goto a rpm =>
    by_cases h : s.motion.active = true ∨ a = s.motion.position
    · exact ⟨_, if_pos h, .answers ..⟩
    · obtain ⟨ha, hne⟩ := not_or.mp h
      exact ⟨_, if_neg h, .goes a rpm (Bool.not_eq_true _ ▸ ha) hne⟩
  | stop =>
    by_cases h : s.motion.active = false ∨ ready s = true
    · exact ⟨_, if_pos h, .answers ..⟩
    · obtain ⟨ha, hr⟩ := not_or.mp h
      exact ⟨_, if_neg h, .stops (by simpa using ha) (by simpa [ready] using hr)⟩
  | ready => exact ⟨_, rfl, .answers ..⟩
  | setpos p =>
    by_cases h : s.motion.active = true
    · exact ⟨_, if_pos h, .answers ..⟩
    · exact ⟨_, if_neg h, .setsPosition p (by simpa using h)⟩
  | setinv b =>
    by_cases h : s.motion.active = true
    · exact ⟨_, if_pos h, .answers ..⟩
    · exact ⟨_, if_neg h, .setsInvert b (by simpa using h)⟩
  | getpos => exact ⟨_, rfl, .answers ..⟩
  | gettgt => exact ⟨_, rfl, .answers ..⟩
  | getstat => exact ⟨_, rfl, .answers ..⟩
  | getprof => exact ⟨_, rfl, .answers ..⟩
  | getramp index =>
    show ∃ t, execGetramp index s = .next t ∧ _
    unfold execGetramp
    split <;> exact ⟨_, rfl, .answers ..⟩
  | rdreg addr => exact ⟨_, rfl, .startsRead addr⟩
  | wrreg addr v => exact ⟨_, rfl, .startsWrite addr v⟩
  | frameReadReq _ _ _ _ => obtain ⟨_, hw⟩ := hi; cases hw
  | frameWriteReq _ _ _ _ _ => obtain ⟨_, hw⟩ := hi; cases hw
  | frameReply _ _ _ _ _ => obtain ⟨_, hw⟩ := hi; cases hw

/-- Everything the host's move can do (R80, R86, U13). -/
inductive HostEffect (s : State) : State → Prop where
  | takes (r : Word64) : HostEffect s (takeResponse r s)
  | waits : HostEffect s s
  | refuses (w : Word64) (ws : List Word64) (hp : s.link.phase = .idle) :
      HostEffect s (answerIllegal w { s with cmdQueue := ws })
  | runs (w : Word64) (ws : List Word64) (i : Instr) (t : State) (hr : s.rsp = none) (hp : s.link.phase = .idle)
      (hq : s.cmdQueue = w :: ws) (hi : decodeCommand s.cfg w = .ok i)
      (h : CommandEffect { s with cmdQueue := ws } i t) : HostEffect s t

theorem hostMove_effect (s : State) : ∃ t, hostMove s = .next t ∧ HostEffect s t := by
  rcases hostMove_cases s with ⟨r, _, h⟩ | ⟨_, _, h⟩ | ⟨w, ws, hr, hq, hp, h⟩
  · exact ⟨_, h, .takes r⟩
  · exact ⟨_, h, .waits⟩
  · rw [h, acceptCommand]
    split
    · rename_i i hi
      obtain ⟨t, ht, he⟩ := exec_command_effect (isCommand_of_decodeCommand hi)
        { s with cmdQueue := ws }
      exact ⟨t, ht, .runs w ws i t hr hp hq hi he⟩
    · exact ⟨_, rfl, .refuses w ws hp⟩

theorem hostEffect_of_next {s t : State} (h : hostMove s = .next t) : HostEffect s t := by
  obtain ⟨t', h', he⟩ := hostMove_effect s
  exact next_inj (h'.symm.trans h) ▸ he

/-- The step of a schedule whose next move is `u` is that move. -/
theorem step_scheduled {s : State} (hw : s.cfg.wf = true) (u : Turn) (us : List Turn) :
    step (scheduled s (u :: us)) = performTurn u (scheduled s us) :=
  step_of_turn (s := scheduled s (u :: us)) hw rfl

/-- A step of such a schedule that goes on is that move. -/
theorem performTurn_of_step_scheduled {s t : State} {u : Turn} {us : List Turn}
    (h : step (scheduled s (u :: us)) = .next t) : performTurn u (scheduled s us) = .next t :=
  step_scheduled (step_next_cases h).1 u us ▸ h

/-- Everything a step can do to the motion fields and the pulse log (R21 to R27, R41). -/
inductive MotionEffect (s t : State) : Prop where
  | stays (hm : t.motion = s.motion) (hl : t.pulseLog = s.pulseLog)
  | pulses (us : List Turn) (hu : s.turns = .pulse :: us) (hne : s.motion.position ≠ s.motion.target)
      (hm : t.motion = { s.motion with position := stepPosition s.motion.direction s.motion.position })
  | completes (harr : s.motion.position = s.motion.target)
      (hm : t.motion = { s.motion with active := false, speedRpm := 0 }) (hl : t.pulseLog = s.pulseLog)
  | goes (a : Word) (rpm : U16) (hi : Accepts s (.goto a rpm)) (hrest : s.motion.active = false)
      (hm : t.motion =
        { s.motion with
          direction := directionTo s.motion.position a, target := a
          speedRpm := BitVec.ofNat 16 (clampRpm s.cfg rpm), active := true })
      (hl : t.pulseLog = s.pulseLog)
  | stops (hact : s.motion.active = true) (hm : t.motion = { s.motion with target := stopTarget s })
      (hl : t.pulseLog = s.pulseLog)
  | setsPosition (p : Word) (hi : Accepts s (.setpos p)) (hrest : s.motion.active = false)
      (hm : t.motion = { s.motion with position := p, target := p }) (hl : t.pulseLog = s.pulseLog)
  | setsInvert (b : Bool) (hi : Accepts s (.setinv b)) (hrest : s.motion.active = false)
      (hm : t.motion = { s.motion with invert := b }) (hl : t.pulseLog = s.pulseLog)
  | resets (us : List Turn) (hu : s.turns = .reset :: us) (hm : t.motion = MotionState.reset)

theorem LinkOnly.motionEffect {s t : State} {us : List Turn} (h : LinkOnly { s with turns := us } t) : MotionEffect s t :=
  .stays h.motion h.pulseLog

/-- The host's move affects the motion fields through the command it presents only. -/
theorem HostEffect.motionEffect {s t : State} {us : List Turn} (hu : s.turns = .host :: us)
    (h : HostEffect { s with turns := us } t) : MotionEffect s t := by
  cases h with
  | takes r => exact .stays rfl rfl
  | waits => exact .stays rfl rfl
  | refuses w ws _ => exact .stays rfl rfl
  | runs w ws i t hr hp hq hi h =>
    have hacc : Accepts s i := ⟨w, ws, us, hu, hr, hp, hq, hi⟩
    cases h with
    | answers => exact .stays rfl rfl
    | goes a rpm hrest _ => exact .goes a rpm hacc hrest rfl (startMove_pulseLog ..)
    | stops hact _ => exact .stops hact rfl rfl
    | setsPosition p hrest => exact .setsPosition p hacc hrest rfl rfl
    | setsInvert b hrest => exact .setsInvert b hacc hrest rfl rfl
    | startsRead => exact .stays rfl rfl
    | startsWrite => exact .stays rfl rfl

theorem step_motionEffect {s t : State} (h : step s = .next t) : MotionEffect s t := by
  obtain ⟨_, ⟨_, rfl⟩ | ⟨u, us, hu, h⟩⟩ := step_next_cases h
  · exact .stays rfl rfl
  cases u with
  | host => exact (hostEffect_of_next h).motionEffect hu
  | pulse =>
    obtain rfl := next_inj h
    rcases pulse_cases { s with turns := us } with ⟨_, e⟩ | ⟨hne, e⟩ <;> rw [e]
    · exact .stays rfl rfl
    · exact .pulses us hu hne rfl
  | tick =>
    obtain ⟨hl, hm | ⟨hr, hm⟩⟩ := tick_motion_cases h
    · exact .stays hm hl
    · exact .completes ((remaining_eq_zero_iff _).mp hr) hm hl
  | link => exact (linkStep_linkOnly h).motionEffect
  | linkTimed => exact (linkTimed_linkOnly h).motionEffect
  | micro =>
    obtain rfl := next_inj h
    exact .stays rfl rfl
  | rxByte b =>
    obtain rfl := next_inj h
    exact (arrive_linkOnly b _).motionEffect
  | reset =>
    obtain rfl := next_inj h
    exact .resets us hu rfl

end Sys2Proof.Machine
end

section
/-! The link sequencer's invariant: it depends on the parameters, the sequencer and the offered response only, and every
operation of the sequencer keeps it (R116, R117, R123). -/

namespace Sys2Proof.Machine

theorem LinkInv.of_same {s t : State} (h : LinkInv s) (hc : t.cfg = s.cfg) (hl : t.link = s.link)
    (hr : t.rsp.isSome = true → s.rsp.isSome = true) : LinkInv t where
  idle_dead := hl ▸ h.idle_dead
  offer_phase := fun ht => hl ▸ h.offer_phase (hr ht)
  attempts := hl ▸ h.attempts
  rx_bound := hl ▸ h.rx_bound
  read_frame := hc ▸ hl ▸ h.read_frame
  write_frame := hc ▸ hl ▸ h.write_frame
  write_phase := hl ▸ h.write_phase
  respond_result := hl ▸ h.respond_result

theorem MotionOnly.linkInv {s t : State} (hm : MotionOnly s t) (h : LinkInv s) : LinkInv t :=
  h.of_same hm.cfg hm.link (hm.rsp ▸ id)

/-- The idle sequencer meets its invariant, whatever is offered. -/
theorem linkInv_of_idle {s : State} (hl : s.link = LinkState.idle) : LinkInv s := by
  constructor <;> simp [hl, LinkState.idle, linkAttempts]

/-- What every operation of a running transaction finds: no response on offer, and fewer attempts done than there are. -/
structure Running (s : State) : Prop where
  rsp_none : s.rsp = none
  write_attempts : s.link.writeAttempts < linkAttempts
  read_attempts : s.link.readAttempts < linkAttempts

theorem LinkInv.running {s : State} (h : LinkInv s) (hp : s.link.phase ≠ .idle) : Running s where
  rsp_none := by
    by_contra hr
    exact hp (h.offer_phase (Option.isSome_iff_ne_none.mpr hr))
  write_attempts := h.attempts.1
  read_attempts := h.attempts.2

theorem Running.beginReadAttempt {s : State} (h : Running s) : LinkInv (beginReadAttempt s) := by
  constructor <;> simp [h.rsp_none, h.write_attempts, h.read_attempts]

theorem Running.beginRead {s : State} (h : Running s) : LinkInv (beginRead s) :=
  Running.beginReadAttempt ⟨h.rsp_none, h.write_attempts, Nat.two_pos⟩

theorem Running.beginWriteAttempt {s : State} (h : Running s) (hw : s.link.isWrite = true) :
    LinkInv (beginWriteAttempt s) := by
  constructor <;> simp [h.rsp_none, h.write_attempts, h.read_attempts, hw]

theorem Running.writeEchoDone {s : State} (h : Running s) (hw : s.link.isWrite = true) : LinkInv (writeEchoDone s) := by
  constructor <;> simp [h.rsp_none, h.write_attempts, h.read_attempts, hw]

/-- A receive call opens with what the receiver holds, cut to what it asks for. -/
theorem Running.openReceive {s : State} (h : Running s) {p : LinkPhase}
    (hp : p = .rEcho ∨ p = .rReply ∨ p = .wEcho ∧ s.link.isWrite = true) : LinkInv (openReceive p s) := by
  rcases hp with rfl | rfl | ⟨rfl, hw⟩
  · constructor <;> simp [h.rsp_none, h.write_attempts, h.read_attempts]
  · constructor <;> simp [h.rsp_none, h.write_attempts, h.read_attempts]
  · constructor <;> simp [h.rsp_none, h.write_attempts, h.read_attempts, hw]

/-- What a read procedure may return: a value, or one of its errors with 0 (R116). -/
def ReadResult (st : Status) (v : Word) : Prop :=
  st = .ok ∨ ((st = .timeout ∨ st = .shortRead ∨ st = .crc) ∧ v = 0#32)

theorem Running.respondRead {s : State} (h : Running s) {st : Status} {v : Word} (hw : s.link.isWrite = false)
    (hres : ReadResult st v) : LinkInv (enterRespond st v s) := by
  unfold ReadResult at hres
  constructor <;> simp [h.rsp_none, h.write_attempts, h.read_attempts, hw, hres]

theorem Running.respondWrite {s : State} (h : Running s) {st : Status} (hw : s.link.isWrite = true)
    (hst : st = .ok ∨ st = .verifyFailed) : LinkInv (enterRespond st 0 s) := by
  constructor <;> simp [h.rsp_none, h.write_attempts, h.read_attempts, hw, hst]

theorem Running.finishRead {s : State} (h : Running s) {st : Status} {v : Word} (hres : ReadResult st v) :
    LinkInv (finishRead st v s) := by
  rcases finishRead_cases st v s with ⟨hw, e⟩ | ⟨hw, _, _, e⟩ | ⟨hw, _, ha, e⟩ | ⟨hw, _, _, e⟩ <;> rw [e]
  · exact h.respondRead hw hres
  · exact h.respondWrite hw (.inl rfl)
  · exact Running.beginWriteAttempt ⟨h.rsp_none, ha, h.read_attempts⟩ hw
  · exact h.respondWrite hw (.inr rfl)

theorem Running.failRead {s : State} (h : Running s) {e : Status} (he : e = .timeout ∨ e = .shortRead ∨ e = .crc) :
    LinkInv (failRead e s) := by
  rcases failRead_cases e s with ⟨ha, hf⟩ | ⟨_, hf⟩ <;> rw [hf]
  · exact Running.beginReadAttempt ⟨h.rsp_none, h.write_attempts, ha⟩
  · have hrun : Running { s with link := { s.link with err := e } } := ⟨h.rsp_none, h.write_attempts, h.read_attempts⟩
    exact hrun.finishRead (.inr ⟨he, rfl⟩)

theorem ReceiveEffect.linkInv {s t : State} (he : ReceiveEffect s t) (h : LinkInv s) : LinkInv t := by
  cases he with
  | rests => exact h
  | fails e hp he =>
    have hrun : Running s := h.running (by rcases hp with hp | hp <;> simp [hp])
    exact hrun.failRead he
  | awaitsReply hp => exact (h.running (by simp [hp])).openReceive (.inr (.inl rfl))
  | reads v hp => exact (h.running (by simp [hp])).finishRead (.inl rfl)
  | echoed hp => exact (h.running (by simp [hp])).writeEchoDone (h.write_phase (.inr (.inl hp)))

theorem LinkInv.wireNext {s : State} (h : LinkInv s) : LinkInv (wireNext s) :=
  h.of_same (wireNext_linkOnly s).cfg (wireNext_link s) (by simp)

/-- A byte that arrives is taken by an open call that still asks for one, or held (R112). -/
theorem LinkInv.arrive {s : State} (h : LinkInv s) (b : Byte) : LinkInv (arrive b s) := by
  rcases arrive_cases b s with ⟨hlt, e⟩ | ⟨_, e⟩ <;> rw [e]
  · refine ⟨fun hp => ?_, h.offer_phase, h.attempts, ?_, h.read_frame, h.write_frame, h.write_phase, h.respond_result⟩
    · have hp : s.link.phase = .idle := hp
      simp [hp, LinkPhase.expects] at hlt
    · simpa using hlt
  · exact h.of_same rfl rfl id

theorem LinkInv.arriveAll {s : State} (h : LinkInv s) (bs : List Byte) : LinkInv (arriveAll bs s) := by
  induction bs generalizing s with
  | nil => exact h
  | cons b bs ih => exact ih (h.arrive b)

/-- A microsecond counts the wait of a running transaction only (R38). -/
theorem LinkInv.countWait {s t : State} (h : LinkInv s) (hc : t.cfg = s.cfg) (hl : t.link = countWait s.link)
    (hr : t.rsp = s.rsp) : LinkInv t := by
  rcases countWait_cases s.link with ⟨hw, e⟩ | ⟨_, e⟩ <;> rw [e] at hl
  · refine (LinkInv.of_same (s := { s with link := { s.link with waitUs := s.link.waitUs + 1 } }) ?_ hc hl (hr ▸ id))
    refine ⟨fun hp => ?_, h.offer_phase, h.attempts, h.rx_bound, h.read_frame, h.write_frame, h.write_phase,
      h.respond_result⟩
    have hp : s.link.phase = .idle := hp
    simp [hp, LinkPhase.waits] at hw
  · exact h.of_same hc hl (hr ▸ id)

/-- A sending phase holds a request frame, which goes out (R113, R114). -/
theorem LinkInv.sendFrame {s : State} (h : LinkInv s) (hp : s.link.phase = .rFlushSend ∨ s.link.phase = .wFlushSend) :
    ∃ t, sendFrame s = .next t ∧ LinkInv t := by
  have hrun (f : Frame) : Running (uartSend f (uartFlush s)) := by
    have hr := h.running (by rcases hp with hp | hp <;> simp [hp])
    exact ⟨hr.rsp_none, hr.write_attempts, hr.read_attempts⟩
  rcases hp with hp | hp
  · exact ⟨_, sendFrame_readRequest (h.read_frame hp), (hrun _).openReceive (.inl rfl)⟩
  · exact ⟨_, sendFrame_writeRequest (h.write_frame hp),
      (hrun _).openReceive (.inr (.inr ⟨rfl, h.write_phase (.inl hp)⟩))⟩

theorem LinkInv.receiveCall {s : State} (h : LinkInv s) : ∃ t, receiveCall s = .next t ∧ LinkInv t := by
  obtain ⟨t, ht, he⟩ := receiveCall_effect s
  exact ⟨t, ht, he.linkInv h.wireNext⟩

theorem LinkInv.receiveMicro {s : State} (h : LinkInv s) : ∃ t, receiveMicro s = .next t ∧ LinkInv t := by
  obtain ⟨t, ht, he⟩ := receiveMicro_effect s
  exact ⟨t, ht, he.linkInv (h.wireNext.arriveAll _)⟩

/-- A LINK step of the event level goes on and keeps the sequencer's invariant, in each phase (R123). -/
theorem LinkInv.linkStep {s : State} (h : LinkInv s) : ∃ t, linkStep s = .next t ∧ LinkInv t := by
  unfold Machine.linkStep
  cases hp : s.link.phase with
  | idle => exact ⟨s, rfl, h⟩
  | rFlushSend => exact h.sendFrame (.inl hp)
  | rEcho => exact h.receiveCall
  | rReply => exact h.receiveCall
  | wFlushSend => exact h.sendFrame (.inr hp)
  | wEcho => exact h.receiveCall
  | wDelay => exact ⟨_, rfl, (h.running (by simp [hp])).beginRead⟩
  | respond => exact ⟨_, rfl, linkInv_of_idle rfl⟩

/-- A LINK step of the timed level goes on and keeps the sequencer's invariant, in each phase (R123). -/
theorem LinkInv.linkTimed {s : State} (h : LinkInv s) : ∃ t, linkTimed s = .next t ∧ LinkInv t := by
  unfold Machine.linkTimed
  cases hp : s.link.phase with
  | idle => exact ⟨s, rfl, h⟩
  | rFlushSend => exact h.sendFrame (.inl hp)
  | rEcho => exact h.receiveMicro
  | rReply => exact h.receiveMicro
  | wFlushSend => exact h.sendFrame (.inr hp)
  | wEcho => exact h.receiveMicro
  | wDelay =>
    dsimp only
    split
    · exact ⟨_, rfl, (h.running (by simp [hp])).beginRead⟩
    · exact ⟨s, rfl, h⟩
  | respond => exact ⟨_, rfl, linkInv_of_idle rfl⟩

/-- A command finds the sequencer idle and the port free: it leaves the sequencer idle or starts a transaction (R118, R119). -/
theorem CommandEffect.linkInv {s t : State} {i : Instr} (he : CommandEffect s i t) (hr : s.rsp = none)
    (hl : s.link = LinkState.idle) : LinkInv t := by
  cases he with
  | answers => exact linkInv_of_idle hl
  | goes a rpm => exact linkInv_of_idle ((startMove_motionOnly a _ s).link.trans hl)
  | stops => exact linkInv_of_idle hl
  | setsPosition => exact linkInv_of_idle hl
  | setsInvert => exact linkInv_of_idle hl
  | startsRead => exact Running.beginRead ⟨hr, Nat.two_pos, Nat.two_pos⟩
  | startsWrite => exact Running.beginWriteAttempt ⟨hr, Nat.two_pos, Nat.two_pos⟩ rfl

theorem HostEffect.linkInv {s t : State} (he : HostEffect s t) (h : LinkInv s) : LinkInv t := by
  cases he with
  | takes r => exact h.of_same rfl rfl (by simp)
  | waits => exact h
  | refuses w ws hp => exact linkInv_of_idle (h.idle_dead hp)
  | runs w ws i t hr hp _ _ he => exact he.linkInv hr (h.idle_dead hp)

end Sys2Proof.Machine
end

section
/-! What a well-formed configuration bounds (R10): speeds, periods and the ramp. -/

namespace Sys2Proof.Machine

section
variable {c : Config} (hw : c.wf = true)
include hw

theorem capacity_of_wf : 3 ≤ c.capacity ∧ c.capacity ≤ 65536 := by
  simp only [Config.wf, Config.wfCapacity, Bool.and_eq_true, decide_eq_true_eq] at hw
  obtain ⟨⟨⟨⟨⟨hcap, _⟩, _⟩, _⟩, _⟩, _⟩ := hw
  exact hcap

theorem speeds_of_wf :
    1 ≤ c.rpmFloor ∧ c.rpmFloor ≤ c.rpmDirect ∧ c.rpmDirect ≤ c.rpmMax ∧ c.rpmMax ≤ 65535 := by
  simp only [Config.wf, Config.wfSpeeds, Bool.and_eq_true, decide_eq_true_eq] at hw
  obtain ⟨⟨⟨⟨⟨_, hspeeds⟩, _⟩, _⟩, _⟩, _⟩ := hw
  exact hspeeds

theorem rate_of_wf : 1 ≤ c.stepsPerRev ∧ c.rpmMax * c.stepsPerRev ≤ 100000 * 60 := by
  simp only [Config.wf, Config.wfRate, Bool.and_eq_true, decide_eq_true_eq] at hw
  obtain ⟨⟨⟨⟨_, hrate⟩, _⟩, _⟩, _⟩ := hw
  exact hrate

theorem stepHigh_of_wf : 1 ≤ c.stepHighUs ∧ c.stepHighUs ≤ 5 := by
  simp only [Config.wf, Config.wfStepHigh, Bool.and_eq_true, decide_eq_true_eq] at hw
  obtain ⟨⟨⟨_, hhigh⟩, _⟩, _⟩ := hw
  exact hhigh

/-- The sigmoid's point symmetry keeps its entries within Q15; past its end it reads 0. -/
theorem sigmoid_le (k : Nat) : sigmoid c k ≤ 32768 := by
  simp only [Config.wf, Config.wfSig, Bool.and_eq_true, decide_eq_true_eq, List.all_eq_true, List.mem_range] at hw
  obtain ⟨⟨_, ⟨⟨hlen, _⟩, _⟩, hsym⟩, _⟩ := hw
  unfold sigmoid
  by_cases hk : k < 64
  · have := hsym k hk
    omega
  · rw [List.getD_eq_default _ _ (by omega)]
    exact Nat.zero_le _

theorem sps_le {rpm : Nat} (hr : rpm ≤ c.rpmMax) : sps c rpm ≤ 100000 := by
  have hprod : rpm * c.stepsPerRev ≤ 100000 * 60 := (Nat.mul_le_mul_right _ hr).trans (rate_of_wf hw).2
  unfold sps
  omega

/-- No programmable period is shorter than ten microseconds (R31(f), R152). -/
theorem ten_le_periodOf {rpm : Nat} (hr : rpm ≤ c.rpmMax) : 10 ≤ periodOf c rpm := by
  have hsps : 10 * sps c rpm ≤ periodNum := by
    have := sps_le hw hr
    unfold periodNum
    omega
  have hpos : 0 < sps c rpm := by
    unfold sps
    omega
  have := (Nat.le_div_iff_mul_le hpos).mpr hsps
  unfold periodOf
  omega

/-- The ramp stays at or below the peak speed (R155). -/
theorem rampRpm_le {peak : Nat} (hp : c.rpmFloor ≤ peak) (n i : Nat) : rampRpm c peak n i ≤ peak := by
  have hsig := sigmoid_le hw (63 * i / (n - 1))
  have hpart : (peak - c.rpmFloor) * sigmoid c (63 * i / (n - 1)) / 32768 ≤ peak - c.rpmFloor :=
    Nat.div_le_of_le_mul (by rw [Nat.mul_comm]; exact Nat.mul_le_mul_right _ hsig)
  unfold rampRpm
  omega

theorem rampStepsOf_range (rpm : Nat) : 2 ≤ rampStepsOf c rpm ∧ rampStepsOf c rpm ≤ c.capacity - 1 := by
  have := capacity_of_wf hw
  unfold rampStepsOf rampMin
  omega

end

/-- A period fits its field (R35, R151). -/
theorem periodWord_toNat (c : Config) (rpm : Nat) : (periodWord c rpm).toNat = periodOf c rpm := by
  have : periodOf c rpm ≤ 65535 := Nat.min_le_left _ _
  rw [periodWord, BitVec.toNat_ofNat, Nat.mod_eq_of_lt (by omega)]

theorem ten_le_periodWord {c : Config} (hw : c.wf = true) {rpm : Nat} (hr : rpm ≤ c.rpmMax) :
    10 ≤ (periodWord c rpm).toNat := by
  rw [periodWord_toNat]
  exact ten_le_periodOf hw hr

/-- A written table lists its old entries and the written index only. -/
theorem RampTable.mem_write {t : RampTable} {i : Nat} {v : U16} {e : RampCell} (h : e ∈ t.write i v) :
    e ∈ t ∨ e.1 = i := by
  induction t with
  | nil =>
    simp only [RampTable.write] at h
    split at h
    · cases h
    · exact .inr (by rw [List.mem_singleton.mp h])
  | cons c t ih =>
    obtain ⟨j, w⟩ := c
    simp only [RampTable.write] at h
    split_ifs at h <;> simp only [List.mem_cons] at h ⊢
    · exact .inl h
    · exact h.elim (fun h => .inr (by rw [h])) .inl
    · exact .inl (.inr h)
    · exact h.elim (fun h => .inr (by rw [h])) (fun h => .inl (.inr h))
    · exact h.elim (fun h => .inl (.inl h)) (fun h => (ih h).imp_left .inr)

/-- The loop of `plan` lists no index at or above its levels but those that stood there (R60, R156). -/
theorem mem_fillRamp {c : Config} {rpm n k : Nat} {t : RampTable} {e : RampCell} (h : e ∈ fillRamp c rpm n k t) :
    e ∈ t ∨ e.1 < k := by
  induction k with
  | zero => exact .inl h
  | succ k ih =>
    rcases RampTable.mem_write h with h | h
    · exact (ih h).imp_right (by omega)
    · exact .inr (by omega)

/-! What `plan` leaves, for a speed that `GOTO` allows (R156). -/

theorem plan_rampIndex (d r : Nat) (s : State) : (plan d r s).profile.rampIndex = 0 := by
  rcases plan_cases d r s with ⟨_, e⟩ | ⟨_, e⟩ <;> rw [e]

theorem plan_rampTable_wf {s : State} (d r : Nat) (ht : s.profile.rampTable.wf = true) :
    (plan d r s).profile.rampTable.wf = true := by
  rcases plan_cases d r s with ⟨_, e⟩ | ⟨_, e⟩ <;> rw [e]
  · exact ht
  · exact fillRamp_wf _ _ _ _ ht

/-- A ramped plan writes every one of its levels. -/
theorem plan_read {s : State} {d r i : Nat} (ht : s.profile.rampTable.wf = true)
    (hr : s.cfg.rpmDirect ≤ r) (hi : i < rampStepsOf s.cfg r) :
    (plan d r s).profile.rampTable.read i = periodWord s.cfg (rampRpm s.cfg r (rampStepsOf s.cfg r) i) := by
  rcases plan_cases d r s with ⟨hlt, _⟩ | ⟨_, e⟩
  · omega
  · rw [e]
    exact (read_fillRamp _ _ _ _ _ ht).trans (if_pos hi)

section
variable {s : State} (hw : s.cfg.wf = true)
include hw

theorem plan_rampSteps_toNat (d r : Nat) :
    (plan d r s).profile.rampSteps.toNat = if r < s.cfg.rpmDirect then 1 else rampStepsOf s.cfg r := by
  have hcap := capacity_of_wf hw
  have hsteps := rampStepsOf_range hw r
  rcases plan_cases d r s with ⟨hr, e⟩ | ⟨hr, e⟩ <;> rw [e]
  · rw [if_pos hr]
    rfl
  · rw [if_neg (by omega)]
    exact Nat.mod_eq_of_lt (by omega)

theorem plan_rampTable_bounded (d r : Nat) (hb : ∀ e ∈ s.profile.rampTable, e.1 < s.cfg.capacity) :
    ∀ e ∈ (plan d r s).profile.rampTable, e.1 < s.cfg.capacity := by
  have hsteps := rampStepsOf_range hw r
  rcases plan_cases d r s with ⟨_, e⟩ | ⟨_, e⟩ <;> rw [e]
  · exact hb
  · intro x hx
    rcases mem_fillRamp hx with hx | hx
    · exact hb x hx
    · omega

theorem ten_le_plan_period {d r : Nat} (ht : s.profile.rampTable.wf = true) (hr : r ≤ s.cfg.rpmMax) :
    10 ≤ (plan d r s).timers.period.toNat := by
  have hspeeds := speeds_of_wf hw
  have hsteps := rampStepsOf_range hw r
  rcases plan_cases d r s with ⟨_, e⟩ | ⟨hd, e⟩ <;> rw [e]
  · exact ten_le_periodWord hw hr
  · show 10 ≤ (RampTable.read _ 0).toNat
    rw [read_fillRamp _ _ _ _ _ ht, if_pos (by omega)]
    exact ten_le_periodWord hw ((rampRpm_le hw (by omega) _ _).trans hr)

end

end Sys2Proof.Machine
end

section
/-! The invariants of the motion, profile and timer fields under PULSE, TICK, the motion commands and the passing of time. -/

namespace Sys2Proof.Machine

theorem MotionInv.of_same {s t : State} (h : MotionInv s) (hc : t.cfg = s.cfg) (hm : t.motion = s.motion)
    (hp : t.profile = s.profile) (ht : t.timers.period = s.timers.period) : MotionInv t := by
  cases s
  cases t
  subst hc hm hp
  exact ⟨h.rest_at_target, h.rest_zero, h.steps_range, h.direct_iff, h.index_range, h.toward, h.speed_max,
    ht ▸ h.period_min, h.ramp_planned, h.ramp_wf, h.ramp_bounded⟩

theorem TimerInv.of_same {s t : State} (h : TimerInv s) (hc : t.cfg = s.cfg)
    (ha : t.timers.periodAct = s.timers.periodAct) (hn : t.timers.tcnt = s.timers.tcnt)
    (hk : t.timers.tickCnt = s.timers.tickCnt) (hh : t.timers.stepHighCnt = s.timers.stepHighCnt) : TimerInv t where
  period_act_min := ha ▸ h.period_act_min
  tcnt_range := ha ▸ hn ▸ h.tcnt_range
  tick_range := hc ▸ hk ▸ h.tick_range
  step_high_range := hc ▸ hh ▸ h.step_high_range

/-- Off the target a move is active (R30). -/
theorem MotionInv.active_of_ne {s : State} (h : MotionInv s) (hne : s.motion.position ≠ s.motion.target) :
    s.motion.active = true := by
  by_contra ha
  exact hne (h.rest_at_target (by simpa using ha))

/-! Signed positions. -/

theorem toInt_lt_or_gt_of_ne {p t : Word} (h : p ≠ t) : p.toInt < t.toInt ∨ t.toInt < p.toInt :=
  lt_or_gt_of_ne (fun e => h (BitVec.eq_of_toInt_eq e))

theorem toInt_range (p : Word) : -2147483648 ≤ p.toInt ∧ p.toInt ≤ 2147483647 := by
  have h1 := BitVec.le_toInt p
  have h2 := BitVec.toInt_lt (x := p)
  omega

/-- `sat32` clamps to the `i32` range (R12). -/
theorem sat32_toInt (z : Int) : (sat32 z).toInt = max (-2147483648) (min 2147483647 z) :=
  BitVec.toInt_ofInt_eq_self (by decide) (by omega) (by omega)

/-- A step adds the direction's sign, on 32-bit patterns (R140). -/
theorem stepPosition_eq_ofInt (d : Direction) (p : Word) :
    stepPosition d p = BitVec.ofInt 32 (p.toInt + directionSign d) := by
  rw [BitVec.ofInt_add, BitVec.ofInt_toInt]
  cases d with
  | forward => rfl
  | reverse => exact BitVec.sub_eq_add_neg p 1#32

/-- A step is one position on, where it stays within `i32` (R140). -/
theorem stepPosition_toInt {d : Direction} {p : Word}
    (h : -2147483648 ≤ p.toInt + directionSign d ∧ p.toInt + directionSign d ≤ 2147483647) :
    (stepPosition d p).toInt = p.toInt + directionSign d := by
  rw [stepPosition_eq_ofInt]
  exact BitVec.toInt_ofInt_eq_self (by decide) (by omega) (by omega)

/-- Off the target the direction is that of the target (R31(d)). -/
theorem MotionInv.toward_cases {s : State} (h : MotionInv s) (hne : s.motion.position ≠ s.motion.target) :
    (s.motion.direction = .forward ∧ s.motion.position.toInt < s.motion.target.toInt) ∨
    (s.motion.direction = .reverse ∧ s.motion.target.toInt < s.motion.position.toInt) := by
  have htow := h.toward (h.active_of_ne hne) hne
  cases hd : s.motion.direction with
  | forward => exact .inl ⟨rfl, htow.mp hd⟩
  | reverse =>
    refine .inr ⟨rfl, (toInt_lt_or_gt_of_ne hne).resolve_left fun hlt => ?_⟩
    rw [htow.mpr hlt] at hd
    cases hd

/-- Off the target a step neither wraps nor passes the target (R31(d), R140). -/
theorem MotionInv.stepPosition_toInt {s : State} (h : MotionInv s) (hne : s.motion.position ≠ s.motion.target) :
    (stepPosition s.motion.direction s.motion.position).toInt =
      s.motion.position.toInt + directionSign s.motion.direction := by
  have hp := toInt_range s.motion.position
  have ht := toInt_range s.motion.target
  refine Machine.stepPosition_toInt ?_
  rcases h.toward_cases hne with ⟨hd, hlt⟩ | ⟨hd, hlt⟩ <;> rw [hd, directionSign] <;> omega

/-! PULSE. -/

theorem MotionInv.pulse {s : State} (h : MotionInv s) : MotionInv (pulse s) := by
  rcases pulse_cases s with ⟨_, e⟩ | ⟨hne, e⟩ <;> rw [e]
  · exact h
  have hact := h.active_of_ne hne
  have hstep := h.stepPosition_toInt hne
  refine ⟨fun hr => ?_, h.rest_zero, h.steps_range, h.direct_iff, h.index_range, fun _ hne' => ?_, h.speed_max,
    h.period_min, h.ramp_planned, h.ramp_wf, h.ramp_bounded⟩
  · exact absurd hr (by simp [hact])
  · have hne'' := toInt_lt_or_gt_of_ne hne'
    simp only [hstep] at hne'' ⊢
    rcases h.toward_cases hne with ⟨hd, hlt⟩ | ⟨hd, hlt⟩ <;> simp only [hd, directionSign] at hne'' ⊢
    · rw [true_iff]
      omega
    · rw [eq_false (by decide : ¬ Direction.reverse = .forward), false_iff]
      omega

theorem TimerInv.pulse {s : State} (h : TimerInv s) : TimerInv (pulse s) := by
  rcases pulse_cases s with ⟨_, e⟩ | ⟨_, e⟩ <;> rw [e]
  · exact h
  · exact ⟨h.period_act_min, h.tcnt_range, h.tick_range, le_rfl⟩

/-! TICK. -/

theorem MotionInv.complete {s : State} (h : MotionInv s) (hr : remaining s = 0) : MotionInv (complete s) where
  rest_at_target := fun _ => (remaining_eq_zero_iff s).mp hr
  rest_zero := fun _ => ⟨rfl, rfl, rfl⟩
  steps_range := fun ha => by cases ha
  direct_iff := fun ha => by cases ha
  index_range := by simp
  toward := fun ha => by cases ha
  speed_max := Nat.zero_le _
  period_min := h.period_min
  ramp_planned := fun ha => by cases ha
  ramp_wf := h.ramp_wf
  ramp_bounded := h.ramp_bounded

theorem MotionInv.holdPeak {s : State} (h : MotionInv s) (hw : s.cfg.wf = true) : MotionInv (holdPeak s) :=
  ⟨h.rest_at_target, h.rest_zero, h.steps_range, h.direct_iff, h.index_range, h.toward, h.speed_max,
    ten_le_periodWord hw h.speed_max, h.ramp_planned, h.ramp_wf, h.ramp_bounded⟩

theorem not_direct_iff (s : State) : direct s = false ↔ s.profile.rampSteps.toNat ≠ 1 := by
  rw [direct, beq_eq_false_iff_ne, ne_eq, ← BitVec.toNat_inj]
  rfl

/-- Every level of a ramped move holds a period `plan` computed, so at least ten microseconds (R31(c), R31(f)). -/
theorem MotionInv.ten_le_level {s : State} (h : MotionInv s) (hw : s.cfg.wf = true) (ha : s.motion.active = true)
    (hd : direct s = false) {i : Nat} (hi : i < s.profile.rampSteps.toNat) :
    10 ≤ (s.profile.rampTable.read i).toNat := by
  have hne := (not_direct_iff s).mp hd
  have hspeeds := speeds_of_wf hw
  have hpeak : s.cfg.rpmDirect ≤ s.motion.speedRpm.toNat := by
    by_contra hlt
    exact hne ((h.direct_iff ha).mpr (by omega))
  rw [(h.ramp_planned ha hne).2 i hi]
  exact ten_le_periodWord hw ((rampRpm_le hw (by omega) _ _).trans h.speed_max)

/-- Selecting one of the levels of a ramped move does not fault and keeps the invariant (R31(c), R158). -/
theorem MotionInv.selectLevel {s : State} (h : MotionInv s) (hw : s.cfg.wf = true) (ha : s.motion.active = true)
    (hd : direct s = false) {i : Nat} (hi : i < s.profile.rampSteps.toNat) :
    ∃ t, selectLevel i s = .next t ∧ MotionInv t := by
  have hcap := capacity_of_wf hw
  have hsteps := h.steps_range ha
  rcases selectLevel_cases i s with ⟨_, e⟩ | ⟨hge, _⟩
  · refine ⟨_, e, h.rest_at_target, fun hr => ?_, h.steps_range, h.direct_iff, ?_, h.toward, h.speed_max,
      h.ten_le_level hw ha hd hi, h.ramp_planned, h.ramp_wf, h.ramp_bounded⟩
    · exact absurd hr (by simp [ha])
    · rw [BitVec.toNat_ofNat, Nat.mod_eq_of_lt (by omega)]
      exact hi.trans_le (le_max_left _ _)
  · omega

/-- TICK does not fault where the invariant holds, and keeps it (R158, R159). -/
theorem MotionInv.tick {s : State} (h : MotionInv s) (hw : s.cfg.wf = true) : ∃ t, tick s = .next t ∧ MotionInv t := by
  have hidx := h.index_range
  unfold Machine.tick
  split
  · exact ⟨s, rfl, h⟩
  rename_i ha
  have ha : s.motion.active = true := by simpa using ha
  have hsteps := h.steps_range ha
  split
  · unfold tickDirect
    split
    · exact ⟨_, rfl, h.complete ‹_›⟩
    · exact ⟨s, rfl, h⟩
  rename_i hd
  have hd : direct s = false := by simpa using hd
  unfold tickRamped
  split
  · split
    · exact h.selectLevel hw ha hd ‹_›
    · exact ⟨_, rfl, h.holdPeak hw⟩
  · split
    · exact h.selectLevel hw ha hd (by omega)
    · split
      · exact ⟨_, rfl, h.complete ‹_›⟩
      · exact h.selectLevel hw ha hd (by omega)

/-- TICK leaves the hidden timer fields alone. -/
theorem TimerInv.tick {s t : State} (h : TimerInv s) (ht : tick s = .next t) : TimerInv t := by
  rcases tick_next_cases ht with ⟨rfl, _⟩ | ⟨rfl, _⟩ | ⟨rfl, _⟩ | ⟨_, _, i, hi, _⟩
  · exact h
  · exact h.of_same rfl rfl rfl rfl rfl
  · exact h.of_same rfl rfl rfl rfl rfl
  · rcases selectLevel_cases i s with ⟨_, e⟩ | ⟨_, e⟩ <;> rw [e] at hi <;> cases hi
    exact h.of_same rfl rfl rfl rfl rfl

/-! `GOTO`. -/

theorem clampRpm_le (c : Config) (rpm : U16) : clampRpm c rpm ≤ c.rpmMax := Nat.min_le_right _ _

/-- The clamped speed fits its field. -/
theorem clampRpm_toNat (c : Config) (rpm : U16) : (BitVec.ofNat 16 (clampRpm c rpm)).toNat = clampRpm c rpm := by
  have : clampRpm c rpm ≤ rpm.toNat := Nat.min_le_left _ _
  exact Nat.mod_eq_of_lt (by omega)

theorem directionTo_forward_iff (p t : Word) : directionTo p t = .forward ↔ p.toInt < t.toInt := by
  unfold directionTo
  split <;> simp [*]

theorem startMove_motionInv {s : State} (h : MotionInv s) (hw : s.cfg.wf = true) (a : Word) (rpm : U16) :
    MotionInv (startMove a (clampRpm s.cfg rpm) s) := by
  set r := clampRpm s.cfg rpm with hr
  set d := (a.toInt - s.motion.position.toInt).natAbs
  have hmax : r ≤ s.cfg.rpmMax := clampRpm_le s.cfg rpm
  have hspeed : (BitVec.ofNat 16 r).toNat = r := clampRpm_toNat s.cfg rpm
  have hcfg : (startMove a r s).cfg = s.cfg := (startMove_motionOnly a r s).cfg
  have hprofile : (startMove a r s).profile = (plan d r s).profile := rfl
  have hsteps := plan_rampSteps_toNat hw d r
  have hrange := rampStepsOf_range hw r
  refine ⟨(fun hrest => by cases hrest), (fun hrest => by cases hrest), fun _ => ?_, fun _ => ?_, ?_,
    fun _ _ => directionTo_forward_iff _ _, ?_, ten_le_plan_period hw h.ramp_wf hmax, fun _ hne => ?_,
    plan_rampTable_wf d r h.ramp_wf, ?_⟩
  · rw [hcfg, hprofile, hsteps]
    split <;> omega
  · rw [hcfg, hprofile, hsteps, startMove_motion, hspeed]
    split <;> omega
  · rw [hprofile, plan_rampIndex]
    simp
  · rw [hcfg, startMove_motion, hspeed]
    exact hmax
  · rw [hprofile, hsteps] at hne
    have hge : ¬ r < s.cfg.rpmDirect := fun hlt => hne (if_pos hlt)
    rw [RampPlanned, hcfg, hprofile, hsteps, startMove_motion, hspeed, if_neg hge]
    exact ⟨rfl, fun i hi => plan_read h.ramp_wf (by omega) hi⟩
  · rw [hcfg]
    exact plan_rampTable_bounded hw d r h.ramp_bounded

theorem plan_hidden_timers (d r : Nat) (s : State) :
    (plan d r s).timers.tickCnt = s.timers.tickCnt ∧ (plan d r s).timers.stepHighCnt = s.timers.stepHighCnt := by
  rcases plan_cases d r s with ⟨_, e⟩ | ⟨_, e⟩ <;> rw [e] <;> exact ⟨rfl, rfl⟩

/-- `GOTO` restarts the pulse timer at the planned period (R213). -/
theorem startMove_timerInv {s : State} (h : TimerInv s) (a : Word) (r : Nat)
    (hp : 10 ≤ (startMove a r s).timers.period.toNat) : TimerInv (startMove a r s) := by
  obtain ⟨htick, hhigh⟩ := plan_hidden_timers (a.toInt - s.motion.position.toInt).natAbs r s
  have hcfg : (startMove a r s).cfg = s.cfg := (startMove_motionOnly a r s).cfg
  refine ⟨hp, ?_, ?_, ?_⟩
  · exact (Nat.zero_lt_of_lt hp)
  · rw [hcfg]
    exact htick ▸ h.tick_range
  · rw [hcfg]
    exact hhigh ▸ h.step_high_range

/-! `STOP`. -/

/-- The target that `STOP` leaves is not behind the position (R171). -/
theorem stopTarget_ahead (s : State) :
    (s.motion.direction = .forward → s.motion.position.toInt ≤ (stopTarget s).toInt) ∧
    (s.motion.direction = .reverse → (stopTarget s).toInt ≤ s.motion.position.toInt) := by
  have hp := toInt_range s.motion.position
  have hb : (0 : Int) ≤ brakeDistance s := Int.natCast_nonneg _
  unfold stopTarget
  constructor <;> intro hd <;> rw [hd] <;> split <;> rw [sat32_toInt, directionSign] <;> omega

theorem MotionInv.stop {s : State} (h : MotionInv s) (ha : s.motion.active = true)
    (hne : s.motion.position ≠ s.motion.target) :
    MotionInv { s with motion := { s.motion with target := stopTarget s } } := by
  refine ⟨fun hr => ?_, h.rest_zero, h.steps_range, h.direct_iff, h.index_range, fun _ hne' => ?_, h.speed_max,
    h.period_min, h.ramp_planned, h.ramp_wf, h.ramp_bounded⟩
  · exact absurd hr (by simp [ha])
  · have hne'' : s.motion.position.toInt < (stopTarget s).toInt ∨ (stopTarget s).toInt < s.motion.position.toInt :=
      toInt_lt_or_gt_of_ne hne'
    obtain ⟨hf, hb⟩ := stopTarget_ahead s
    show s.motion.direction = .forward ↔ s.motion.position.toInt < (stopTarget s).toInt
    rcases h.toward_cases hne with ⟨hd, _⟩ | ⟨hd, _⟩
    · have := hf hd
      simp only [hd, true_iff]
      omega
    · have := hb hd
      simp only [hd, reduceCtorEq, false_iff]
      omega

/-! `SETPOS` and `SETINV`. -/

theorem MotionInv.setPosition {s : State} (h : MotionInv s) (hrest : s.motion.active = false) (p : Word) :
    MotionInv { s with motion := { s.motion with position := p, target := p } } :=
  ⟨fun _ => rfl, h.rest_zero, h.steps_range, h.direct_iff, h.index_range, fun ha => by simp [hrest] at ha, h.speed_max,
    h.period_min, h.ramp_planned, h.ramp_wf, h.ramp_bounded⟩

theorem MotionInv.setInvert {s : State} (h : MotionInv s) (b : Bool) :
    MotionInv { s with motion := { s.motion with invert := b } } :=
  ⟨h.rest_at_target, h.rest_zero, h.steps_range, h.direct_iff, h.index_range, h.toward, h.speed_max,
    h.period_min, h.ramp_planned, h.ramp_wf, h.ramp_bounded⟩

/-! One microsecond, counter by counter (R28, R211, R215). -/

theorem alarmDue_iff (t : Timers) : alarmDue t = true ↔ t.periodAct.toNat ≤ t.tcnt.toNat + 1 := decide_eq_true_iff

theorem tickDue_iff (c : Config) (t : Timers) : tickDue c t = true ↔ c.tickUs ≤ t.tickCnt.toNat + 1 :=
  decide_eq_true_iff

/-- The alarm sets the count back and takes the programmed period over (R211). -/
theorem countMicro_of_alarmDue (c : Config) {t : Timers} (h : alarmDue t = true) :
    (countMicro c t).tcnt = 0 ∧ (countMicro c t).periodAct = t.period :=
  ⟨if_pos h, if_pos h⟩

/-- Without an alarm the pulse timer counts on; below a 16-bit period the count cannot wrap (R211). -/
theorem countMicro_of_not_alarmDue (c : Config) {t : Timers} (h : ¬ alarmDue t = true) :
    (countMicro c t).tcnt.toNat = t.tcnt.toNat + 1 ∧ (countMicro c t).periodAct = t.periodAct := by
  have hlt := (alarmDue_iff t).not.mp h
  have hword := t.periodAct.isLt
  refine ⟨?_, if_neg h⟩
  have hcnt : (countMicro c t).tcnt = t.tcnt + 1 := if_neg h
  rw [hcnt, BitVec.toNat_add_of_lt]
  · rfl
  · exact (by omega : t.tcnt.toNat + 1 < 2 ^ 16)

theorem countMicro_of_tickDue {c : Config} {t : Timers} (h : tickDue c t = true) : (countMicro c t).tickCnt = 0 := if_pos h

theorem countMicro_of_not_tickDue {c : Config} {t : Timers} (h : ¬ tickDue c t = true) :
    (countMicro c t).tickCnt = t.tickCnt + 1 := if_neg h

/-- A microsecond counts on or wraps, so that every counter stays in its range (R28, R211, R215). -/
theorem TimerInv.countMicro {s t : State} (h : TimerInv s) (hp : 10 ≤ s.timers.period.toNat) (hc : t.cfg = s.cfg)
    (ht : t.timers = countMicro s.cfg s.timers) : TimerInv t := by
  have hpulse : 10 ≤ t.timers.periodAct.toNat ∧ t.timers.tcnt.toNat < t.timers.periodAct.toNat := by
    rw [ht]
    by_cases hdue : alarmDue s.timers = true
    · obtain ⟨hcnt, hact⟩ := countMicro_of_alarmDue s.cfg hdue
      rw [hcnt, hact]
      exact ⟨hp, Nat.zero_lt_of_lt hp⟩
    · obtain ⟨hcnt, hact⟩ := countMicro_of_not_alarmDue s.cfg hdue
      have hlt := (alarmDue_iff s.timers).not.mp hdue
      rw [hcnt, hact]
      exact ⟨h.period_act_min, by omega⟩
  have htick : t.timers.tickCnt.toNat < max t.cfg.tickUs 1 := by
    rw [ht, hc]
    by_cases hdue : tickDue s.cfg s.timers = true
    · rw [countMicro_of_tickDue hdue]
      exact lt_max_of_lt_right Nat.zero_lt_one
    · have hlt := (tickDue_iff s.cfg s.timers).not.mp hdue
      rw [countMicro_of_not_tickDue hdue]
      exact lt_max_of_lt_left ((Nat.mod_le _ _).trans_lt (not_le.mp hlt))
  have hhigh : t.timers.stepHighCnt ≤ t.cfg.stepHighUs := by
    rw [ht, hc]
    exact (Nat.sub_le _ _).trans h.step_high_range
  exact ⟨hpulse.1, hpulse.2, htick, hhigh⟩

end Sys2Proof.Machine
end

section
/-! Every move keeps the invariants and goes on; the statements about the invariants of a run (R30, R31). -/

namespace Sys2Proof.Machine

/-- The block after reset meets the invariants under any well-formed configuration (R43, R230). -/
theorem inv_resetBlock {s : State} (hw : s.cfg.wf = true) : Inv (resetBlock s) where
  cfg_wf := hw
  motion :=
    { rest_at_target := fun _ => rfl
      rest_zero := fun _ => ⟨rfl, rfl, rfl⟩
      steps_range := fun ha => by cases ha
      direct_iff := fun ha => by cases ha
      index_range := by simp [VelocityProfile.reset]
      toward := fun ha => by cases ha
      speed_max := Nat.zero_le _
      period_min := by simp [Timers.reset]
      ramp_planned := fun ha => by cases ha
      ramp_wf := rfl
      ramp_bounded := fun _ he => by cases he }
  timers :=
    { period_act_min := by simp [Timers.reset]
      tcnt_range := by simp [Timers.reset]
      tick_range := lt_max_of_lt_right Nat.zero_lt_one
      step_high_range := Nat.zero_le _ }
  link := linkInv_of_idle rfl

/-- A move that writes link fields only keeps the invariants where it keeps the sequencer's. -/
theorem Inv.of_linkOnly {s t : State} (h : Inv s) (ho : LinkOnly s t) (hl : LinkInv t) : Inv t where
  cfg_wf := ho.cfg ▸ h.cfg_wf
  motion := h.motion.of_same ho.cfg ho.motion ho.profile (ho.timers ▸ rfl)
  timers := h.timers.of_same ho.cfg (ho.timers ▸ rfl) (ho.timers ▸ rfl) (ho.timers ▸ rfl) (ho.timers ▸ rfl)
  link := hl

/-- The host's words and the schedule enter no invariant. -/
theorem Inv.withAgents {s : State} (h : Inv s) (ws : List Word64) (us : List Turn) :
    Inv { s with cmdQueue := ws, turns := us } where
  cfg_wf := h.cfg_wf
  motion := h.motion.of_same rfl rfl rfl rfl
  timers := h.timers.of_same rfl rfl rfl rfl rfl
  link := h.link.of_same rfl rfl id

/-- An answer enters the sequencer's invariant only. -/
theorem MotionInv.answer {s : State} (h : MotionInv s) (op : Byte) (st : Status) (aux : U16) (v : Word) :
    MotionInv (s.answer op st aux v) :=
  h.of_same rfl rfl rfl rfl

theorem CommandEffect.motionInv {s t : State} {i : Instr} (he : CommandEffect s i t) (h : MotionInv s)
    (hw : s.cfg.wf = true) : MotionInv t := by
  cases he with
  | answers => exact h.answer ..
  | goes a rpm => exact (startMove_motionInv h hw a rpm).answer ..
  | stops ha hne => exact (h.stop ha hne).answer ..
  | setsPosition p hrest => exact (h.setPosition hrest p).answer ..
  | setsInvert b => exact (h.setInvert b).answer ..
  | startsRead => exact h.of_same rfl rfl rfl rfl
  | startsWrite => exact h.of_same rfl rfl rfl rfl

theorem CommandEffect.timerInv {s t : State} {i : Instr} (he : CommandEffect s i t) (h : Inv s) : TimerInv t := by
  cases he with
  | goes a rpm =>
    have hstart := startMove_timerInv h.timers a _ (startMove_motionInv h.motion h.cfg_wf a rpm).period_min
    exact hstart.of_same rfl rfl rfl rfl rfl
  | answers => exact h.timers.of_same rfl rfl rfl rfl rfl
  | stops => exact h.timers.of_same rfl rfl rfl rfl rfl
  | setsPosition => exact h.timers.of_same rfl rfl rfl rfl rfl
  | setsInvert => exact h.timers.of_same rfl rfl rfl rfl rfl
  | startsRead => exact h.timers.of_same rfl rfl rfl rfl rfl
  | startsWrite => exact h.timers.of_same rfl rfl rfl rfl rfl

theorem CommandEffect.cfg {s t : State} {i : Instr} (he : CommandEffect s i t) : t.cfg = s.cfg := by
  cases he with
  | goes a rpm => exact (startMove_motionOnly a _ s).cfg
  | answers => rfl
  | stops => rfl
  | setsPosition => rfl
  | setsInvert => rfl
  | startsRead => rfl
  | startsWrite => rfl

theorem HostEffect.inv {s t : State} (he : HostEffect s t) (h : Inv s) : Inv t := by
  have hl : LinkInv t := he.linkInv h.link
  cases he with
  | takes r => exact ⟨h.cfg_wf, h.motion.of_same rfl rfl rfl rfl, h.timers.of_same rfl rfl rfl rfl rfl, hl⟩
  | waits => exact h
  | refuses w ws _ => exact ⟨h.cfg_wf, h.motion.of_same rfl rfl rfl rfl, h.timers.of_same rfl rfl rfl rfl rfl, hl⟩
  | runs w ws i t _ _ _ _ he =>
    have hq : Inv { s with cmdQueue := ws } := h.withAgents ws s.turns
    exact ⟨he.cfg ▸ h.cfg_wf, he.motionInv hq.motion h.cfg_wf, he.timerInv hq, hl⟩

theorem Inv.pulse {s : State} (h : Inv s) : Inv (pulse s) where
  cfg_wf := (pulse_motionOnly s).cfg ▸ h.cfg_wf
  motion := h.motion.pulse
  timers := h.timers.pulse
  link := (pulse_motionOnly s).linkInv h.link

theorem Inv.tick {s : State} (h : Inv s) : ∃ t, tick s = .next t ∧ Inv t := by
  obtain ⟨t, ht, hm⟩ := h.motion.tick h.cfg_wf
  have ho := tick_motionOnly ht
  exact ⟨t, ht, ho.cfg ▸ h.cfg_wf, hm, h.timers.tick ht, ho.linkInv h.link⟩

theorem Inv.microsecond {s : State} (h : Inv s) : Inv (microsecond s) where
  cfg_wf := h.cfg_wf
  motion := h.motion.of_same rfl rfl rfl rfl
  timers := h.timers.countMicro h.motion.period_min rfl rfl
  link := h.link.countWait rfl rfl rfl

/-- Every scheduled move goes on and keeps the invariants. -/
theorem Inv.performTurn {s : State} (h : Inv s) (u : Turn) : ∃ t, performTurn u s = .next t ∧ Inv t := by
  cases u with
  | host =>
    obtain ⟨t, ht, he⟩ := hostMove_effect s
    exact ⟨t, ht, he.inv h⟩
  | pulse => exact ⟨_, rfl, h.pulse⟩
  | tick => exact h.tick
  | link =>
    obtain ⟨t, ht, hl⟩ := h.link.linkStep
    exact ⟨t, ht, h.of_linkOnly (linkStep_linkOnly ht) hl⟩
  | linkTimed =>
    obtain ⟨t, ht, hl⟩ := h.link.linkTimed
    exact ⟨t, ht, h.of_linkOnly (linkTimed_linkOnly ht) hl⟩
  | micro => exact ⟨_, rfl, h.microsecond⟩
  | rxByte b => exact ⟨_, rfl, h.of_linkOnly (arrive_linkOnly b s) (h.link.arrive b)⟩
  | reset => exact ⟨_, rfl, inv_resetBlock h.cfg_wf⟩

/-- Every step from a state with the invariants goes on to a state with them. -/
theorem Inv.step {s : State} (h : Inv s) : ∃ t, step s = .next t ∧ Inv t := by
  cases hu : s.turns with
  | nil => exact ⟨_, step_of_no_turn h.cfg_wf hu, (h.withAgents s.cmdQueue _).microsecond⟩
  | cons u us =>
    rw [step_of_turn h.cfg_wf hu]
    exact (h.withAgents s.cmdQueue us).performTurn u

/-- Settles O38: the step is a function, so the state it goes on to is the one of `Inv.step`. -/
theorem everyStepKeepsInvariants : Obligations.EveryStepKeepsInvariants := by
  intro s t h hst
  obtain ⟨t', ht', hinv⟩ := h.step
  exact next_inj (ht'.symm.trans hst) ▸ hinv

/-- Settles O39. -/
theorem everyStepGoesOn : Obligations.EveryStepGoesOn := by
  intro s h
  obtain ⟨t, ht, _⟩ := h.step
  exact ⟨t, ht⟩

/-- Settles O37: the reset state is the default block after a reset event. -/
theorem invariantsHoldAtReset : Obligations.InvariantsHoldAtReset :=
  inv_resetBlock (s := State.reset) default_wf

/-- INV1 is kept, whatever the step does to the motion fields (R30). -/
theorem MotionEffect.rest_at_target {s t : State} (he : MotionEffect s t)
    (h : s.motion.active = false → s.motion.position = s.motion.target) (ht : t.motion.active = false) :
    t.motion.position = t.motion.target := by
  cases he with
  | stays hm => rw [hm] at ht ⊢; exact h ht
  | pulses us _ hne hm => rw [hm] at ht; exact absurd (h ht) hne
  | completes harr hm => rw [hm]; exact harr
  | goes a rpm _ _ hm => rw [hm] at ht; cases ht
  | stops hact hm => rw [hm] at ht; exact absurd ht (by simp [hact])
  | setsPosition p _ _ hm => rw [hm]
  | setsInvert b _ _ hm => rw [hm] at ht ⊢; exact h ht
  | resets us _ hm => rw [hm]; rfl

/-- `GOTO 1, 20` from reset and the one PULSE that arrives: the move is active at its target until a TICK. -/
theorem arrived_and_active :
    ∃ t, Host.Core.run core 2 { State.reset with cmdQueue := [0x0100001400000001#64], turns := [.host, .pulse] } = .next t ∧
      t.motion.position = t.motion.target ∧ t.motion.active = true :=
  ⟨_, rfl, by decide, by decide⟩

/-- Settles O40: at reset, by every step, and the short run that refutes the converse. -/
theorem restAtTargetIsKept : Obligations.RestAtTargetIsKept :=
  ⟨fun _ => rfl, fun _ _ h hst => (step_motionEffect hst).rest_at_target h, _, [.host, .pulse], arrived_and_active⟩

/-- Settles O42: off the target the move is active and its direction is that of the target, so the step does not wrap. -/
theorem pulseTakesOneOffRemaining : Obligations.PulseTakesOneOffRemaining := by
  intro s h hne
  have hstep := h.stepPosition_toInt hne
  rcases pulse_cases s with ⟨heq, _⟩ | ⟨_, e⟩
  · exact absurd heq hne
  · rw [e]
    refine ⟨?_, hstep⟩
    simp only [remaining, hstep]
    rcases h.toward_cases hne with ⟨hd, hlt⟩ | ⟨hd, hlt⟩ <;> simp only [hd, directionSign] <;> omega

end Sys2Proof.Machine
end

section
/-! Who writes what (R41): the two units leave each other alone, and the writers of `position`, the pulse log and the direction
pin. -/

namespace Sys2Proof.Machine

open Sys2Proof.Statements

theorem LinkOnly.of_link_turn {s t : State} {u : Turn} (hu : u = .link ∨ u = .linkTimed ∨ ∃ b, u = .rxByte b)
    (h : performTurn u s = .next t) : LinkOnly s t := by
  rcases hu with rfl | rfl | ⟨b, rfl⟩
  · exact linkStep_linkOnly h
  · exact linkTimed_linkOnly h
  · exact next_inj h ▸ arrive_linkOnly b s

theorem MotionOnly.of_timer_turn {s t : State} {u : Turn} (hu : u = .pulse ∨ u = .tick)
    (h : performTurn u s = .next t) : MotionOnly s t := by
  rcases hu with rfl | rfl
  · exact next_inj h ▸ pulse_motionOnly s
  · exact tick_motionOnly h

/-- Settles O55, from the frame of each of the five moves. -/
theorem linkAndMotionAreIsolated : Obligations.LinkAndMotionAreIsolated := by
  intro s t u us hst
  have h := performTurn_of_step_scheduled hst
  refine ⟨fun hu => ?_, fun hu => ?_⟩
  · have ho := LinkOnly.of_link_turn hu h
    exact ⟨⟨ho.motion, ho.profile, ho.timers⟩, ho.pulseLog, ho.cmdQueue, ho.rspLog, ho.cfg⟩
  · have ho := MotionOnly.of_timer_turn hu h
    exact ⟨⟨ho.link, ho.rxHeld, ho.txLog⟩, ho.rsp, ho.cfg, ho.cmdQueue, ho.wire, ho.wireCalls, ho.turns, ho.rspLog⟩

/-- A step moves one position up or down, on 32-bit patterns (R140). -/
theorem stepPosition_cases (d : Direction) (p : Word) : stepPosition d p = p + 1 ∨ stepPosition d p = p - 1 := by
  cases d with
  | forward => exact .inl rfl
  | reverse => exact .inr rfl

/-- Settles O58, by what a step can do to the motion fields. -/
theorem positionWriters : Obligations.PositionWriters := by
  intro s t hst hnoreset
  cases step_motionEffect hst with
  | stays hm hl => exact ⟨fun h => absurd (by rw [hm]) h, fun h => absurd hl h⟩
  | pulses us hu _ hm =>
    exact ⟨fun _ => .inl ⟨us, hu, by rw [hm]; exact stepPosition_cases _ _⟩, fun _ => ⟨us, hu⟩⟩
  | completes _ hm hl => exact ⟨fun h => absurd (by rw [hm]) h, fun h => absurd hl h⟩
  | goes _ _ _ _ hm hl => exact ⟨fun h => absurd (by rw [hm]) h, fun h => absurd hl h⟩
  | stops _ hm hl => exact ⟨fun h => absurd (by rw [hm]) h, fun h => absurd hl h⟩
  | setsPosition p hi hrest hm hl => exact ⟨fun _ => .inr ⟨hrest, p, hi, by rw [hm]⟩, fun h => absurd hl h⟩
  | setsInvert _ _ _ hm hl => exact ⟨fun h => absurd (by rw [hm]) h, fun h => absurd hl h⟩
  | resets us hu => exact absurd hu (hnoreset us)

/-- The direction pin reads `direction` and `invert` only (R27). -/
theorem dirPin_congr {s t : State} (hd : t.motion.direction = s.motion.direction)
    (hi : t.motion.invert = s.motion.invert) : dirPin t = dirPin s := by
  rw [dirPin, dirPin, hd, hi]

/-- Settles O59, by what a step can do to the motion fields. -/
theorem dirPinChangesOnlyAtRest : Obligations.DirPinChangesOnlyAtRest := by
  intro s t hst hnoreset hpin
  cases step_motionEffect hst with
  | stays hm => exact absurd (dirPin_congr (by rw [hm]) (by rw [hm])) hpin
  | pulses _ _ _ hm => exact absurd (dirPin_congr (by rw [hm]) (by rw [hm])) hpin
  | completes _ hm => exact absurd (dirPin_congr (by rw [hm]) (by rw [hm])) hpin
  | goes a rpm hi hrest => exact ⟨hrest, .inl ⟨a, rpm, hi⟩⟩
  | stops _ hm => exact absurd (dirPin_congr (by rw [hm]) (by rw [hm])) hpin
  | setsPosition _ _ _ hm => exact absurd (dirPin_congr (by rw [hm]) (by rw [hm])) hpin
  | setsInvert b hi hrest => exact ⟨hrest, .inr ⟨b, hi⟩⟩
  | resets us hu => exact absurd hu (hnoreset us)

end Sys2Proof.Machine
end

section
/-! The timers, microsecond by microsecond: what each counter shows after `k` of them (R28, R211, R212, R215). -/

namespace Sys2Proof.Machine

open Sys2Proof.Statements

/-- The step pin's counter counts down and stays at 0 (R28). -/
theorem stepHighCnt_iterate (c : Config) (t : Timers) (k : Nat) :
    ((countMicro c)^[k] t).stepHighCnt = t.stepHighCnt - k := by
  induction k with
  | zero => rfl
  | succ k ih =>
    rw [Function.iterate_succ_apply']
    show ((countMicro c)^[k] t).stepHighCnt - 1 = _
    rw [ih, Nat.sub_sub]

/-- Before its alarm the pulse timer counts the microseconds against an unchanged period (R211). -/
theorem tcnt_iterate (c : Config) (t : Timers) {k : Nat} (h : t.tcnt.toNat + k < t.periodAct.toNat) :
    ((countMicro c)^[k] t).tcnt.toNat = t.tcnt.toNat + k ∧ ((countMicro c)^[k] t).periodAct = t.periodAct := by
  induction k with
  | zero => exact ⟨rfl, rfl⟩
  | succ k ih =>
    obtain ⟨hcnt, hact⟩ := ih (by omega)
    have hdue : ¬ alarmDue ((countMicro c)^[k] t) = true := by
      rw [alarmDue_iff, hcnt, hact]
      omega
    rw [Function.iterate_succ_apply']
    obtain ⟨hcnt', hact'⟩ := countMicro_of_not_alarmDue c hdue
    exact ⟨by omega, hact'.trans hact⟩

/-- Before its wrap the tick timer counts the microseconds, where `TICK_US` fits its width (R215). -/
theorem tickCnt_iterate {c : Config} {t : Timers} (hc : c.tickUs ≤ 2 ^ 32) {k : Nat} (h : t.tickCnt.toNat + k < c.tickUs) :
    ((countMicro c)^[k] t).tickCnt.toNat = t.tickCnt.toNat + k := by
  induction k with
  | zero => rfl
  | succ k ih =>
    have hcnt := ih (by omega)
    have hdue : ¬ tickDue c ((countMicro c)^[k] t) = true := by
      rw [tickDue_iff, hcnt]
      omega
    rw [Function.iterate_succ_apply', countMicro_of_not_tickDue hdue, BitVec.toNat_add_of_lt]
    · rw [hcnt]
      rfl
    · rw [hcnt]
      exact (by omega : t.tickCnt.toNat + k + 1 < 2 ^ 32)

/-- Settles O53: the microsecond that completes `TICK_US` is the last one counted on. -/
theorem ticksComeWhenIntervalCompletes : Obligations.TicksComeWhenIntervalCompletes := by
  intro c t hlt hc
  have hdue {k : Nat} (hk : t.tickCnt.toNat + k < c.tickUs) :
      tickDue c ((countMicro c)^[k] t) = decide (t.tickCnt.toNat + k + 1 = c.tickUs) := by
    rw [Bool.eq_iff_iff, tickDue_iff, tickCnt_iterate hc hk, decide_eq_true_iff]
    omega
  refine ⟨fun k hk => hdue hk, ?_⟩
  obtain ⟨m, hm⟩ : ∃ m, c.tickUs - t.tickCnt.toNat = m + 1 := ⟨c.tickUs - t.tickCnt.toNat - 1, by omega⟩
  have hlast : tickDue c ((countMicro c)^[m] t) = true := by
    rw [hdue (by omega)]
    exact decide_eq_true (by omega)
  rw [hm, Function.iterate_succ_apply', countMicro_of_tickDue hlast]
  rfl

/-- A pulse raises the step pin for `STEP_HIGH_US` and leaves the other counters alone (R141). -/
theorem pulse_timers {s : State} (hne : s.motion.position ≠ s.motion.target) :
    (pulse s).timers = { s.timers with stepHighCnt := s.cfg.stepHighUs } := by
  rcases pulse_cases s with ⟨heq, _⟩ | ⟨_, e⟩
  · exact absurd heq hne
  · rw [e]

/-- Settles O44: the pin's counter is shorter than any period, so it has run out before the soonest alarm. -/
theorem stepPinHighForItsWidth : Obligations.StepPinHighForItsWidth := by
  intro s h hne
  have hhigh := stepHigh_of_wf h.cfg_wf
  have hact := h.timers.period_act_min
  have hper := h.motion.period_min
  have hcount (k : Nat) : ((countMicro s.cfg)^[k] (pulse s).timers).stepHighCnt = s.cfg.stepHighUs - k := by
    rw [stepHighCnt_iterate, pulse_timers hne]
  refine ⟨fun k => ?_, by omega, by omega, fun hzero k hdue => ?_⟩
  · rw [hcount, decide_eq_decide]
    omega
  · rw [hcount]
    by_contra hpos
    have hbefore : (pulse s).timers.tcnt.toNat + k < (pulse s).timers.periodAct.toNat := by
      rw [pulse_timers hne]
      show s.timers.tcnt.toNat + k < s.timers.periodAct.toNat
      omega
    obtain ⟨hcnt, hperiod⟩ := tcnt_iterate s.cfg _ hbefore
    rw [alarmDue_iff, hcnt, hperiod, pulse_timers hne] at hdue
    have hdue : s.timers.periodAct.toNat ≤ s.timers.tcnt.toNat + k + 1 := hdue
    omega

/-- The sequencer's wait counter counts in the phases the statements name (R38). -/
theorem countWait_eq_waited (l : LinkState) : countWait l = waited l := by
  unfold countWait waited
  cases hp : l.phase <;> rfl

/-- A microsecond raises exactly the events whose counters complete, PULSE first (R206). -/
theorem raised_eq (s : State) :
    raised s =
      (if s.timers.tcnt.toNat + 1 ≥ s.timers.periodAct.toNat then [.pulse] else []) ++
      (if s.timers.tickCnt.toNat + 1 ≥ s.cfg.tickUs then [.tick] else []) := by
  simp only [raised, alarmDue_iff, tickDue_iff, ge_iff_le]

/-- One microsecond, seen from outside: every counter and every other field (R28, R206, R211, R215). -/
theorem microPassed_microsecond (s : State) (us : List Turn) : MicroPassed s us (microsecond (scheduled s us)) := by
  refine ⟨countMicro s.cfg s.timers, ?_, rfl, rfl, ?_, ?_⟩
  · show { s with
        timers := countMicro s.cfg s.timers, link := countWait s.link, turns := raised s ++ us } = _
    rw [countWait_eq_waited, raised_eq]
  · split
    · obtain ⟨hcnt, hact⟩ := countMicro_of_alarmDue s.cfg ((alarmDue_iff s.timers).mpr ‹_›)
      exact ⟨by rw [hcnt]; rfl, hact⟩
    · exact countMicro_of_not_alarmDue s.cfg ((alarmDue_iff s.timers).not.mpr ‹_›)
  · split
    · rw [countMicro_of_tickDue ((tickDue_iff s.cfg s.timers).mpr ‹_›)]
      rfl
    · exact countMicro_of_not_tickDue ((tickDue_iff s.cfg s.timers).not.mpr ‹_›)

/-- Settles O51. -/
theorem microsecondCountsTimers : Obligations.MicrosecondCountsTimers := fun s us hw =>
  ⟨_, step_scheduled hw .micro us, microPassed_microsecond s us⟩

/-- Settles O54: the timed level is a microsecond with the host's and LINK's moves scheduled. -/
theorem eventsOfOneMicrosecondInOrder : Obligations.EventsOfOneMicrosecondInOrder := fun s hw hu =>
  ⟨_, step_of_no_turn hw hu, microPassed_microsecond s [.host, .linkTimed]⟩

end Sys2Proof.Machine
end

section
/-! The commands that start a transaction, the LINK step that ends it, and the reset values. -/

namespace Sys2Proof.Machine

open Sys2Proof.Statements

/-! Words of the port and bytes of the frames, as the statements write them and as the model assembles them. -/

/-- Shifting the fields of a word into place and joining them is appending them (R81, R87). -/
theorem portWord_eq_append (a b : Byte) (c : U16) (d : Word) : portWord a b c d = a ++ b ++ c ++ d := by
  apply BitVec.eq_of_getLsbD_eq
  intro i hi
  simp only [portWord, BitVec.getLsbD_or, BitVec.getLsbD_shiftLeft, BitVec.getLsbD_setWidth, BitVec.getLsbD_append]
  by_cases h1 : i < 32
  · simp [h1, hi, show i < 48 by omega, show i < 56 by omega]
  · have hd : d.getLsbD i = false := BitVec.getLsbD_of_ge d i (by omega)
    by_cases h2 : i < 48
    · simp [h1, h2, hi, hd, show i < 56 by omega, show i - 32 < 16 by omega, show i - 32 < 64 by omega]
    · have hc : c.getLsbD (i - 32) = false := BitVec.getLsbD_of_ge c _ (by omega)
      by_cases h3 : i < 56
      · simp [h1, h2, h3, hi, hd, hc, show ¬ i - 32 < 16 by omega, show i - 48 < 64 by omega,
          show i - 32 - 16 = i - 48 by omega, show i - 48 < 8 by omega]
      · have hb : b.getLsbD (i - 48) = false := BitVec.getLsbD_of_ge b _ (by omega)
        simp [h1, h2, h3, hi, hd, hc, hb, show ¬ i - 32 < 16 by omega, show i - 56 < 64 by omega,
          show i - 32 - 16 = i - 48 by omega, show ¬ i - 48 < 8 by omega, show i - 48 - 8 = i - 56 by omega]

theorem portWord_eq_commandWord (a b : Byte) (c : U16) (d : Word) : portWord a b c d = commandWord a b c d :=
  portWord_eq_append a b c d

theorem responseWord_eq_portWord (op : Byte) (st : Status) (aux : U16) (v : Word) :
    responseWord op st aux v = portWord op (statusCode st) aux v :=
  (portWord_eq_append _ _ _ _).symm

theorem readAddrByte_eq_ofNat : ∀ addr : BitVec 7, readAddrByte addr = BitVec.ofNat 8 addr.toNat := by decide

theorem writeAddrByte_eq_ofNat : ∀ addr : BitVec 7, writeAddrByte addr = BitVec.ofNat 8 (addr.toNat + 0x80) := by decide

/-- The request frames of the model are those of the statements (R113, R114). -/
theorem readRequest_eq_readFrame (c : Config) (addr : BitVec 7) : readRequest c addr = readFrame c addr := by
  simp only [readFrame, ← readAddrByte_eq_ofNat]
  rfl

theorem writeRequest_eq_writeFrame (c : Config) (addr : BitVec 7) (v : Word) :
    writeRequest c addr v = writeFrame c addr v := by
  simp only [writeFrame, ← writeAddrByte_eq_ofNat]
  rfl

/-! Decoding the two commands. -/

/-- Among the words of one opcode, those of `P` run their command and the rest are answered `ILLEGAL` (R80, R84, R86). -/
theorem acceptCommand_eq_ite {op a : Byte} {r : U16} {d : Word} {s : State} {i : Instr} (P : Prop) [Decidable P]
    (hok : P → decodeCommand s.cfg (portWord op a r d) = .ok i)
    (hbad : ¬ P → ∃ e, decodeCommand s.cfg (portWord op a r d) = .error e) :
    acceptCommand (portWord op a r d) s = if P then exec i s else .next (illegal s op) := by
  unfold acceptCommand
  split_ifs with h
  · rw [hok h]
  · obtain ⟨e, he⟩ := hbad h
    have hop : opcodeField (portWord op a r d) = op := by rw [portWord_eq_commandWord, opcodeField_commandWord]
    simp only [he, answerIllegal, hop, State.answer, responseWord_eq_portWord]
    rfl

theorem decodeCommand_rdreg (c : Config) (a : Byte) (r : U16) (d : Word) :
    decodeCommand c (portWord 0x10#8 a r d) =
      if r = 0#16 ∧ d = 0#32 then if a.toNat ≤ 0x7F then .ok (.rdreg (a.setWidth 7)) else .error .outOfRange
      else .error .reservedField := by
  rw [portWord_eq_commandWord]
  simp [decodeCommand, decodeRdreg, opNop, opGoto, opStop, opReady, opSetpos, opSetinv, opGetpos, opGettgt, opGetstat,
    opGetprof, opGetramp, opRdreg]

theorem decodeCommand_wrreg (c : Config) (a : Byte) (r : U16) (d : Word) :
    decodeCommand c (portWord 0x11#8 a r d) =
      if r = 0#16 then if a.toNat ≤ 0x7F then .ok (.wrreg (a.setWidth 7) d) else .error .outOfRange
      else .error .reservedField := by
  rw [portWord_eq_commandWord]
  simp [decodeCommand, decodeWrreg, opNop, opGoto, opStop, opReady, opSetpos, opSetinv, opGetpos, opGettgt, opGetstat,
    opGetprof, opGetramp, opRdreg, opWrreg]

theorem eq_zero_iff_toNat {w : Nat} (x : BitVec w) : x = 0#w ↔ x.toNat = 0 := by
  rw [← BitVec.toNat_inj, BitVec.toNat_ofNat, Nat.zero_mod]

/-- `RDREG`: `addr <= 0x7F`, the other fields zero (R84). -/
theorem acceptCommand_rdreg (a : Byte) (r : U16) (d : Word) (s : State) :
    acceptCommand (portWord 0x10#8 a r d) s =
      if a.toNat ≤ 0x7F ∧ r.toNat = 0 ∧ d.toNat = 0 then exec (.rdreg (BitVec.ofNat 7 a.toNat)) s
      else .next (illegal s 0x10#8) := by
  refine acceptCommand_eq_ite _ (fun ⟨ha, hr, hd⟩ => ?_) (fun hn => ?_) <;> rw [decodeCommand_rdreg]
  · rw [if_pos ⟨(eq_zero_iff_toNat r).mpr hr, (eq_zero_iff_toNat d).mpr hd⟩, if_pos ha]
    rfl
  · simp only [eq_zero_iff_toNat]
    split_ifs with hz ha
    · exact absurd ⟨ha, hz⟩ hn
    · exact ⟨_, rfl⟩
    · exact ⟨_, rfl⟩

/-- `WRREG`: `addr <= 0x7F`, `rpm` zero (R84). -/
theorem acceptCommand_wrreg (a : Byte) (r : U16) (d : Word) (s : State) :
    acceptCommand (portWord 0x11#8 a r d) s =
      if a.toNat ≤ 0x7F ∧ r.toNat = 0 then exec (.wrreg (BitVec.ofNat 7 a.toNat) d) s
      else .next (illegal s 0x11#8) := by
  refine acceptCommand_eq_ite _ (fun ⟨ha, hr⟩ => ?_) (fun hn => ?_) <;> rw [decodeCommand_wrreg]
  · rw [if_pos ((eq_zero_iff_toNat r).mpr hr), if_pos ha]
    rfl
  · simp only [eq_zero_iff_toNat]
    split_ifs with hz ha
    · exact absurd ⟨ha, hz⟩ hn
    · exact ⟨_, rfl⟩
    · exact ⟨_, rfl⟩

/-- Settles O14: the whole sequencer after each command, and the words that are these commands. -/
theorem linkCommandsStartTransactions : Obligations.LinkCommandsStartTransactions := by
  refine ⟨fun addr s => ?_, fun addr value s => ?_, acceptCommand_rdreg, acceptCommand_wrreg⟩
  · rw [← readRequest_eq_readFrame]
    rfl
  · rw [← writeRequest_eq_writeFrame]
    rfl

/-- The step of RESPOND offers the word of the transaction's opcode and frees the sequencer (R118, R119). -/
theorem offerResponse_eq_offered (s : State) :
    offerResponse s =
      offered s (if s.link.isWrite = true then 0x11#8 else 0x10#8) (statusCode s.link.status) s.link.value := by
  unfold offerResponse State.answer
  rw [responseWord_eq_portWord]
  rfl

/-- Settles O17, at both levels. -/
theorem respondOffersAndGoesIdle : Obligations.RespondOffersAndGoesIdle := by
  intro s us u hw hu
  have hphase : (scheduled s us).link.phase = s.link.phase := rfl
  refine ⟨fun hp => ?_, fun hp => ?_⟩ <;> rw [step_scheduled hw]
  · have hoffer := offerResponse_eq_offered (scheduled s us)
    rcases hu with rfl | rfl
    · simp only [performTurn, linkStep, hphase, hp, hoffer]
      rfl
    · simp only [performTurn, linkTimed, hphase, hp, hoffer]
      rfl
  · rcases hu with rfl | rfl
    · simp only [performTurn, linkStep, hphase, hp]
    · simp only [performTurn, linkTimed, hphase, hp]

/-- Settles O35: the reset table lists nothing, so every entry reads 0; the rest is R43's table. -/
theorem resetValues : Obligations.ResetValues :=
  ⟨rfl, rfl, rfl, rfl, rfl, rfl, rfl, rfl, RampTable.read_nil, rfl, rfl, rfl, rfl, rfl, rfl, rfl, rfl, rfl, rfl⟩

end Sys2Proof.Machine
end

section
/-! The checksum on plain numbers, and over the serial levels of its bytes (R65, R110). -/

namespace Sys2Proof.Machine

open Sys2Proof.Statements

/-- A bit of a byte, on plain numbers. -/
theorem toNat_div_two_pow_mod_two (b : Byte) (j : Nat) : b.toNat / 2 ^ j % 2 = (b.getLsbD j).toNat :=
  (Nat.toNat_testBit b.toNat j).symm

theorem bool_toNat_xor_eq_one (a b : Bool) : a.toNat ^^^ b.toNat = 1 ↔ (a ^^ b) = true := by
  cases a <;> cases b <;> decide

/-- The shift of the checksum register, within 8 bits (R110). -/
theorem toNat_shiftLeft_one (crc : Byte) : (crc <<< 1).toNat = crc.toNat * 2 % 256 := by
  rw [BitVec.toNat_shiftLeft, Nat.shiftLeft_eq, pow_one]

/-- One message bit: bit 7 against it decides whether 0x07 is added in (R110). -/
theorem crcBit_toNat (crc : Byte) (m : Bool) : (crcBit crc m).toNat = crcRegister crc.toNat m.toNat := by
  have htop : crc.toNat / 128 % 2 = (crc.getLsbD 7).toNat := toNat_div_two_pow_mod_two crc 7
  unfold crcBit crcRegister
  rw [htop]
  simp only [bool_toNat_xor_eq_one]
  split
  · rw [BitVec.toNat_xor, toNat_shiftLeft_one]
    rfl
  · exact toNat_shiftLeft_one crc

/-- A byte is eight bits entered one after another, on either side (R110). -/
theorem crcByte_toNat (crc b : Byte) : (crcByte crc b).toNat = crcRegisterByte crc.toNat b.toNat := by
  refine (List.foldl_hom BitVec.toNat fun c j => ?_).symm
  rw [toNat_div_two_pow_mod_two]
  exact (crcBit_toNat c (b.getLsbD j)).symm

theorem crc8_toNat (d : List Byte) : (crc8 d).toNat = (d.map BitVec.toNat).foldl crcRegisterByte 0x00 := by
  rw [List.foldl_map]
  exact (List.foldl_hom BitVec.toNat fun c b => (crcByte_toNat c b).symm).symm

/-- The levels of a character less its start and stop bits are the data bits, bit 0 first (R65). -/
theorem serialByte_data (b : Byte) : ((serialByte b).drop 1).take 8 = (List.range 8).map b.getLsbD := rfl

/-- The checksum register runs over the data bits as they travel (R65, R110). -/
theorem crc8_eq_foldl_serial (d : List Byte) :
    crc8 d = (d.flatMap fun b => ((serialByte b).drop 1).take 8).foldl crcBit 0#8 := by
  simp only [serialByte_data, List.foldl_flatMap, List.foldl_map]
  rfl

/-- Settles O25: bit by bit, byte by byte, and over the whole message. -/
theorem checksumTakesBitsInSerialOrder : Obligations.ChecksumTakesBitsInSerialOrder :=
  ⟨crcBit_toNat, crcByte_toNat, crc8_toNat, crc8_eq_foldl_serial⟩

end Sys2Proof.Machine
end

section
/-! The distance of a running transaction from its response: every operation of the sequencer lowers it, waiting and the other
agents' moves keep it (R120, R123). -/

namespace Sys2Proof.Machine

open Sys2Proof.Statements

/-! The distance reads the phase, the kind of transaction and the two counts of attempts only. -/

@[simp] theorem linkRank_with_rx (l : LinkState) (rx : List Byte) : linkRank { l with rx := rx } = linkRank l := rfl

@[simp] theorem linkRank_countWait (l : LinkState) : linkRank (countWait l) = linkRank l := by
  rcases countWait_cases l with ⟨_, e⟩ | ⟨_, e⟩ <;> rw [e]
  rfl

@[simp] theorem linkRank_arrive (b : Byte) (s : State) : linkRank (arrive b s).link = linkRank s.link := by
  rcases arrive_cases b s with ⟨_, e⟩ | ⟨_, e⟩ <;> rw [e]
  exact linkRank_with_rx ..

/-- WIRE's bytes of a microsecond go to the open call or are held: only `rx` of the sequencer changes (R112). -/
theorem arriveAll_wireNext_link (bs : List Byte) (s : State) :
    ∃ rx, (arriveAll bs (wireNext s)).link = { s.link with rx := rx } := by
  obtain ⟨rx, held, e, _⟩ := arriveAll_eq bs (wireNext s)
  exact ⟨rx, by rw [e, wireNext_link]⟩

/-! The distance in each phase. -/

theorem linkRank_of_rFlushSend {l : LinkState} (hp : l.phase = .rFlushSend) :
    linkRank l = 3 * (2 - l.readAttempts) + laterAttempts l + 1 := by
  simp only [linkRank, readRank, hp]

theorem linkRank_of_rEcho {l : LinkState} (hp : l.phase = .rEcho) :
    linkRank l = 3 * (2 - l.readAttempts) - 1 + laterAttempts l + 1 := by
  simp only [linkRank, readRank, hp]

theorem linkRank_of_rReply {l : LinkState} (hp : l.phase = .rReply) :
    linkRank l = 3 * (2 - l.readAttempts) - 2 + laterAttempts l + 1 := by
  simp only [linkRank, readRank, hp]

theorem linkRank_of_wFlushSend {l : LinkState} (hp : l.phase = .wFlushSend) :
    linkRank l = 9 * (2 - l.writeAttempts) + 1 := by
  simp only [linkRank, hp]

theorem linkRank_of_wEcho {l : LinkState} (hp : l.phase = .wEcho) : linkRank l = 9 * (2 - l.writeAttempts) := by
  simp only [linkRank, hp]

theorem linkRank_of_wDelay {l : LinkState} (hp : l.phase = .wDelay) : linkRank l = 9 * (2 - l.writeAttempts) - 1 := by
  simp only [linkRank, hp]

theorem linkRank_of_respond {l : LinkState} (hp : l.phase = .respond) : linkRank l = 1 := by
  simp only [linkRank, hp]

theorem linkRank_of_idle {l : LinkState} (hp : l.phase = .idle) : linkRank l = 0 := by
  simp only [linkRank, hp]

theorem laterAttempts_of_write {l : LinkState} (hw : l.isWrite = true) : laterAttempts l = 9 * (1 - l.writeAttempts) :=
  if_pos hw

theorem laterAttempts_of_read {l : LinkState} (hw : l.isWrite = false) : laterAttempts l = 0 := by
  simp [laterAttempts, hw]

theorem laterAttempts_le (l : LinkState) : laterAttempts l ≤ 9 := by
  unfold laterAttempts
  split <;> omega

/-! The bounds. -/

theorem readRank_le (done : Nat) (p : LinkPhase) : readRank done p ≤ 6 := by
  cases p <;> simp only [readRank] <;> omega

theorem linkRank_le (l : LinkState) : linkRank l ≤ 19 := by
  have hread := readRank_le l.readAttempts l.phase
  have hlater := laterAttempts_le l
  unfold linkRank
  split <;> omega

/-- A `RDREG` is in none of the write phases, and has no write attempt after its reads (R118). -/
theorem LinkInv.linkRank_le_of_read {s : State} (h : LinkInv s) (hr : s.link.isWrite = false) : linkRank s.link ≤ 7 := by
  have hread := readRank_le s.link.readAttempts s.link.phase
  have hlater := laterAttempts_of_read hr
  have hphase : ¬ (s.link.phase = .wFlushSend ∨ s.link.phase = .wEcho ∨ s.link.phase = .wDelay) := fun hp => by
    rw [h.write_phase hp] at hr
    cases hr
  unfold linkRank
  split
  -- the three phases of a write attempt
  case h_3 hp => exact absurd (.inl hp) hphase
  case h_4 hp => exact absurd (.inr (.inl hp)) hphase
  case h_5 hp => exact absurd (.inr (.inr hp)) hphase
  all_goals omega

theorem LinkInv.writeAttempts_le {s : State} (h : LinkInv s) : s.link.writeAttempts ≤ 1 := Nat.le_of_lt_succ h.attempts.1

theorem LinkInv.readAttempts_le {s : State} (h : LinkInv s) : s.link.readAttempts ≤ 1 := Nat.le_of_lt_succ h.attempts.2

/-- With an attempt still to be over, every phase but IDLE has a step before it (R123). -/
theorem LinkInv.linkRank_eq_zero_iff {s : State} (h : LinkInv s) : linkRank s.link = 0 ↔ s.link.phase = .idle := by
  have hwa := h.writeAttempts_le
  refine ⟨fun hz => ?_, linkRank_of_idle⟩
  cases hp : s.link.phase with
  | idle => rfl
  | rFlushSend => rw [linkRank_of_rFlushSend hp] at hz; omega
  | rEcho => rw [linkRank_of_rEcho hp] at hz; omega
  | rReply => rw [linkRank_of_rReply hp] at hz; omega
  | wFlushSend => rw [linkRank_of_wFlushSend hp] at hz; omega
  | wEcho => rw [linkRank_of_wEcho hp] at hz; omega
  | wDelay => rw [linkRank_of_wDelay hp] at hz; omega
  | respond => rw [linkRank_of_respond hp] at hz; omega

/-! What each operation leaves. -/

/-- After a read only RESPOND or the later write attempts are left (R117 to R119). -/
theorem linkRank_finishRead_le (st : Status) (v : Word) (s : State) :
    linkRank (finishRead st v s).link ≤ laterAttempts s.link + 1 := by
  rcases finishRead_cases st v s with ⟨_, e⟩ | ⟨_, _, _, e⟩ | ⟨hw, _, _, e⟩ | ⟨_, _, _, e⟩ <;> rw [e]
  · exact (linkRank_of_respond rfl).trans_le (Nat.le_add_left 1 _)
  · exact (linkRank_of_respond rfl).trans_le (Nat.le_add_left 1 _)
  · rw [linkRank_of_wFlushSend rfl, laterAttempts_of_write hw]
    show 9 * (2 - (s.link.writeAttempts + 1)) + 1 ≤ _
    omega
  · exact (linkRank_of_respond rfl).trans_le (Nat.le_add_left 1 _)

/-- After a failed read attempt the other read attempt is left, if it is still to come, and what follows the read (R116). -/
theorem linkRank_failRead_le (e : Status) (s : State) :
    linkRank (failRead e s).link ≤ 3 * (1 - s.link.readAttempts) + laterAttempts s.link + 1 := by
  rcases failRead_cases e s with ⟨_, h⟩ | ⟨_, h⟩ <;> rw [h]
  · rw [linkRank_of_rFlushSend rfl]
    show 3 * (2 - (s.link.readAttempts + 1)) + laterAttempts s.link + 1 ≤ _
    omega
  · have hfin : _ ≤ laterAttempts s.link + 1 := linkRank_finishRead_le e 0 { s with link := { s.link with err := e } }
    omega

/-- A failed attempt had at least the step of its failure before it. -/
theorem LinkInv.linkRank_failRead_lt {s : State} (h : LinkInv s) (hp : s.link.phase = .rEcho ∨ s.link.phase = .rReply)
    (e : Status) : linkRank (failRead e s).link < linkRank s.link := by
  have hra := h.readAttempts_le
  have hle := linkRank_failRead_le e s
  rcases hp with hp | hp
  · rw [linkRank_of_rEcho hp]; omega
  · rw [linkRank_of_rReply hp]; omega

/-- A receive call that ends brings the transaction closer (R116, R117). -/
theorem LinkInv.receiveDone_closer {s t : State} {got : List Byte} (h : LinkInv s)
    (hp : s.link.phase = .rEcho ∨ s.link.phase = .rReply ∨ s.link.phase = .wEcho) (ht : receiveDone got s = .next t) :
    linkRank t.link < linkRank s.link := by
  have hra := h.readAttempts_le
  have hwa := h.writeAttempts_le
  rcases hp with hp | hp | hp <;> simp only [receiveDone, hp] at ht
  · obtain rfl := next_inj ht
    rcases echoDone_cases got s with ⟨e, _, heq⟩ | heq <;> rw [heq]
    · exact h.linkRank_failRead_lt (.inl hp) e
    · rw [linkRank_of_rEcho hp, linkRank_of_rReply rfl]
      show 3 * (2 - s.link.readAttempts) - 2 + laterAttempts s.link + 1 < _
      omega
  · rcases replyDone_cases got hp with ⟨v, heq⟩ | ⟨e, _, heq⟩ <;> obtain rfl := next_inj (heq.symm.trans ht)
    · have hfin := linkRank_finishRead_le .ok v s
      rw [linkRank_of_rReply hp]
      omega
    · exact h.linkRank_failRead_lt (.inr hp) e
  · obtain rfl := next_inj ht
    rw [linkRank_of_wEcho hp, linkRank_of_wDelay rfl]
    show 9 * (2 - s.link.writeAttempts) - 1 < _
    omega

/-- A request that goes out opens the call of its echo, one step closer (R113, R114). -/
theorem LinkInv.sendFrame_closer {s t : State} (h : LinkInv s)
    (hp : s.link.phase = .rFlushSend ∨ s.link.phase = .wFlushSend) (ht : Machine.sendFrame s = .next t) :
    linkRank t.link < linkRank s.link := by
  have hra := h.readAttempts_le
  rcases hp with hp | hp
  · obtain rfl := next_inj ((sendFrame_readRequest (h.read_frame hp)).symm.trans ht)
    rw [linkRank_of_rFlushSend hp, linkRank_of_rEcho rfl]
    show 3 * (2 - s.link.readAttempts) - 1 + laterAttempts s.link + 1 < _
    omega
  · obtain rfl := next_inj ((sendFrame_writeRequest (h.write_frame hp)).symm.trans ht)
    rw [linkRank_of_wFlushSend hp, linkRank_of_wEcho rfl]
    exact Nat.lt_succ_self _

/-- The end of the delay begins the read-back: 7 steps beside the later attempts, where 8 were left (R117). -/
theorem LinkInv.beginRead_closer {s : State} (h : LinkInv s) (hp : s.link.phase = .wDelay) :
    linkRank (beginRead s).link < linkRank s.link := by
  have hwa := h.writeAttempts_le
  have hlater := laterAttempts_of_write (h.write_phase (.inr (.inr hp)))
  rw [linkRank_of_wDelay hp, linkRank_of_rFlushSend rfl]
  show 3 * (2 - 0) + laterAttempts s.link + 1 < _
  omega

theorem offerResponse_closer {s : State} (hp : s.link.phase = .respond) :
    linkRank (offerResponse s).link < linkRank s.link := by
  rw [linkRank_of_respond hp, offerResponse_link, linkRank_of_idle rfl]
  exact Nat.one_pos

/-! LINK's moves. -/

theorem LinkInv.receiveCall_closer {s t : State} (h : LinkInv s)
    (hp : s.link.phase = .rEcho ∨ s.link.phase = .rReply ∨ s.link.phase = .wEcho) (ht : Machine.receiveCall s = .next t) :
    linkRank t.link < linkRank s.link := by
  rw [← wireNext_link s] at hp ⊢
  exact h.wireNext.receiveDone_closer hp ht

/-- Every LINK step of the event level brings a running transaction closer, in each phase (R123). -/
theorem LinkInv.linkStep_closer {s t : State} (h : LinkInv s) (hrun : s.link.phase ≠ .idle)
    (ht : Machine.linkStep s = .next t) : linkRank t.link < linkRank s.link := by
  cases hp : s.link.phase <;> simp only [Machine.linkStep, hp] at ht
  case idle => exact absurd hp hrun
  case rFlushSend => exact h.sendFrame_closer (.inl hp) ht
  case rEcho => exact h.receiveCall_closer (.inl hp) ht
  case rReply => exact h.receiveCall_closer (.inr (.inl hp)) ht
  case wFlushSend => exact h.sendFrame_closer (.inr hp) ht
  case wEcho => exact h.receiveCall_closer (.inr (.inr hp)) ht
  case wDelay => exact next_inj ht ▸ h.beginRead_closer hp
  case respond => exact next_inj ht ▸ offerResponse_closer hp

/-- LINK waits on: the distance stays and the time of the phase is not over (R112). -/
def WaitsOn (s t : State) : Prop := linkRank t.link = linkRank s.link ∧ s.link.waitUs < waitLimit s.cfg s.link.phase

theorem waitLimit_of_receives (c : Config) {p : LinkPhase} (hp : p = .rEcho ∨ p = .rReply ∨ p = .wEcho) :
    waitLimit c p = c.rxTimeoutMs * 1000 := by
  rcases hp with rfl | rfl | rfl <;> rfl

/-- A receive call of the timed level ends, closer, or waits on within its time (R112). -/
theorem LinkInv.receiveMicro_closer {s t : State} (h : LinkInv s)
    (hp : s.link.phase = .rEcho ∨ s.link.phase = .rReply ∨ s.link.phase = .wEcho) (ht : Machine.receiveMicro s = .next t) :
    linkRank t.link < linkRank s.link ∨ WaitsOn s t := by
  obtain ⟨rx, hlink⟩ := arriveAll_wireNext_link (wireAnswer s) s
  have hcfg := ((wireNext_linkOnly s).trans (arriveAll_linkOnly (wireAnswer s) _)).cfg
  have hinv := h.wireNext.arriveAll (wireAnswer s)
  unfold Machine.receiveMicro at ht
  generalize Machine.arriveAll (wireAnswer s) (Machine.wireNext s) = u at hlink hcfg hinv ht
  have hrank : linkRank u.link = linkRank s.link := by rw [hlink, linkRank_with_rx]
  dsimp only at ht
  split at ht
  · refine .inl (hrank ▸ hinv.receiveDone_closer ?_ ht)
    rwa [hlink]
  · rename_i hover
    obtain rfl := next_inj ht
    refine .inr ⟨hrank, ?_⟩
    simp only [receiveOver, decide_eq_true_eq, not_or, not_le] at hover
    rw [waitLimit_of_receives s.cfg hp, ← hcfg]
    simpa only [hlink] using hover.2

/-- A LINK step of the timed level brings a running transaction closer or waits on, in each phase (R112, R123). -/
theorem LinkInv.linkTimed_closer {s t : State} (h : LinkInv s) (hrun : s.link.phase ≠ .idle)
    (ht : Machine.linkTimed s = .next t) : linkRank t.link < linkRank s.link ∨ WaitsOn s t := by
  cases hp : s.link.phase <;> simp only [Machine.linkTimed, hp] at ht
  case idle => exact absurd hp hrun
  case rFlushSend => exact .inl (h.sendFrame_closer (.inl hp) ht)
  case rEcho => exact h.receiveMicro_closer (.inl hp) ht
  case rReply => exact h.receiveMicro_closer (.inr (.inl hp)) ht
  case wFlushSend => exact .inl (h.sendFrame_closer (.inr hp) ht)
  case wEcho => exact h.receiveMicro_closer (.inr (.inr hp)) ht
  case wDelay =>
    split at ht
    · exact .inl (next_inj ht ▸ h.beginRead_closer hp)
    · rename_i hover
      obtain rfl := next_inj ht
      refine .inr ⟨rfl, ?_⟩
      rw [hp]
      exact Nat.lt_of_not_le hover
  case respond => exact .inl (next_inj ht ▸ offerResponse_closer hp)

/-! The other agents' moves. -/

/-- While a transaction runs the host's move leaves the sequencer alone (R80, R241). -/
theorem HostEffect.link_of_running {s t : State} (he : HostEffect s t) (hrun : s.link.phase ≠ .idle) : t.link = s.link := by
  cases he with
  | takes r => rfl
  | waits => rfl
  | refuses w ws hp => exact absurd hp hrun
  | runs w ws i t _ hp _ _ _ => exact absurd hp hrun

/-- No move but LINK's and reset touches the distance of a running transaction (R71, R121). -/
theorem linkRank_of_other_turn {s t : State} {u : Turn} (hrun : s.link.phase ≠ .idle) (ht : performTurn u s = .next t)
    (hl : u ≠ .link) (hlt : u ≠ .linkTimed) (hr : u ≠ .reset) : linkRank t.link = linkRank s.link := by
  cases u with
  | host => rw [(hostEffect_of_next ht).link_of_running hrun]
  | pulse => rw [(MotionOnly.of_timer_turn (.inl rfl) ht).link]
  | tick => rw [(MotionOnly.of_timer_turn (.inr rfl) ht).link]
  | link => exact absurd rfl hl
  | linkTimed => exact absurd rfl hlt
  | micro =>
    obtain rfl := next_inj ht
    exact linkRank_countWait s.link
  | rxByte b =>
    obtain rfl := next_inj ht
    exact linkRank_arrive b s
  | reset => exact absurd rfl hr

/-- Settles O22: the bounds of the distance, then LINK's move at each level and the moves of the others. -/
theorem linkStepsComeCloserToResponse : Obligations.LinkStepsComeCloserToResponse := by
  intro s h
  refine ⟨linkRank_le s.link, h.link.linkRank_le_of_read, h.link.linkRank_eq_zero_iff, fun us u t hst hne => ?_⟩
  have hrun : s.link.phase ≠ .idle := mt linkRank_of_idle hne
  have hinv : LinkInv (scheduled s us) := h.link.of_same rfl rfl id
  have ht := performTurn_of_step_scheduled hst
  refine ⟨?_, ?_, ?_, linkRank_of_other_turn (s := scheduled s us) hrun ht⟩
  · rintro rfl
    exact hinv.linkStep_closer hrun ht
  · rintro rfl
    rcases hinv.linkTimed_closer hrun ht with hlt | ⟨heq, _⟩
    · exact hlt.le
    · exact heq.le
  · rintro rfl hover
    rcases hinv.linkTimed_closer hrun ht with hlt | ⟨_, hwait⟩
    · exact hlt
    · exact absurd hover (Nat.not_le.mpr hwait)

end Sys2Proof.Machine
end

section
/-! What the decoder accepts at each of the three places, as an equivalence with the encoder, and the two round trips (R81 to R85,
R89). -/

namespace Sys2Proof.Machine

open Sys2Proof.Statements

/-! The fields of a word against its assembly, and the operands that fill less than their field (R81, R82). -/

theorem eq_commandWord_iff {w : Word64} {op a : Byte} {r : U16} {d : Word} :
    w = commandWord op a r d ↔ opcodeField w = op ∧ addrField w = a ∧ rpmField w = r ∧ dataField w = d := by
  constructor
  · rintro rfl
    simp
  · rintro ⟨rfl, rfl, rfl, rfl⟩
    exact (commandWord_fields w).symm

theorem boolWord_toNat_le (b : Bool) : (boolWord b).toNat ≤ 1 := by cases b <;> decide

theorem boolWord_getLsbD_zero (b : Bool) : (boolWord b).getLsbD 0 = b := by cases b <;> decide

theorem boolWord_of_le_one {d : Word} (h : d.toNat ≤ 1) : boolWord (d.getLsbD 0) = d := by
  have h01 : d = 0#32 ∨ d = 1#32 := by bv_omega
  rcases h01 with rfl | rfl <;> decide

theorem addr_toByte_le : ∀ a : BitVec 7, (a.setWidth 8).toNat ≤ 0x7F := by decide

theorem addr_toByte_toAddr : ∀ a : BitVec 7, (a.setWidth 8).setWidth 7 = a := by decide

theorem byte_toAddr_toByte : ∀ a : Byte, a.toNat ≤ 0x7F → (a.setWidth 7).setWidth 8 = a := by decide

/-! The opcode selects the family's decoder (R83). -/

section
variable {c : Config} {w : Word64}

theorem decodeCommand_of_opNop (h : opcodeField w = opNop) : decodeCommand c w = decodePlain w .nop := by
  rw [decodeCommand, h]; rfl
theorem decodeCommand_of_opGoto (h : opcodeField w = opGoto) : decodeCommand c w = decodeGoto w := by
  rw [decodeCommand, h]; rfl
theorem decodeCommand_of_opStop (h : opcodeField w = opStop) : decodeCommand c w = decodePlain w .stop := by
  rw [decodeCommand, h]; rfl
theorem decodeCommand_of_opReady (h : opcodeField w = opReady) : decodeCommand c w = decodePlain w .ready := by
  rw [decodeCommand, h]; rfl
theorem decodeCommand_of_opSetpos (h : opcodeField w = opSetpos) : decodeCommand c w = decodeSetpos w := by
  rw [decodeCommand, h]; rfl
theorem decodeCommand_of_opSetinv (h : opcodeField w = opSetinv) : decodeCommand c w = decodeSetinv w := by
  rw [decodeCommand, h]; rfl
theorem decodeCommand_of_opGetpos (h : opcodeField w = opGetpos) : decodeCommand c w = decodePlain w .getpos := by
  rw [decodeCommand, h]; rfl
theorem decodeCommand_of_opGettgt (h : opcodeField w = opGettgt) : decodeCommand c w = decodePlain w .gettgt := by
  rw [decodeCommand, h]; rfl
theorem decodeCommand_of_opGetstat (h : opcodeField w = opGetstat) : decodeCommand c w = decodePlain w .getstat := by
  rw [decodeCommand, h]; rfl
theorem decodeCommand_of_opGetprof (h : opcodeField w = opGetprof) : decodeCommand c w = decodePlain w .getprof := by
  rw [decodeCommand, h]; rfl
theorem decodeCommand_of_opGetramp (h : opcodeField w = opGetramp) : decodeCommand c w = decodeGetramp c w := by
  rw [decodeCommand, h]; rfl
theorem decodeCommand_of_opRdreg (h : opcodeField w = opRdreg) : decodeCommand c w = decodeRdreg w := by
  rw [decodeCommand, h]; rfl
theorem decodeCommand_of_opWrreg (h : opcodeField w = opWrreg) : decodeCommand c w = decodeWrreg w := by
  rw [decodeCommand, h]; rfl

end

/-! What each family's decoder accepts: exactly the words its instructions are assembled to (R84). -/

section
variable {c : Config} {w : Word64} {op : Byte} {i j : Instr}

theorem decodePlain_eq_ok_iff (hop : opcodeField w = op) :
    decodePlain w i = .ok j ↔ w = commandWord op 0 0 0 ∧ i = j := by
  unfold decodePlain
  split <;> simp_all [eq_commandWord_iff]

theorem decodeGoto_eq_ok_iff (hop : opcodeField w = op) :
    decodeGoto w = .ok i ↔ ∃ t r, w = commandWord op 0 r t ∧ .goto t r = i := by
  unfold decodeGoto
  split <;> simp_all [eq_commandWord_iff]

theorem decodeSetpos_eq_ok_iff (hop : opcodeField w = op) :
    decodeSetpos w = .ok i ↔ ∃ p, w = commandWord op 0 0 p ∧ .setpos p = i := by
  unfold decodeSetpos
  split <;> simp_all [eq_commandWord_iff]

theorem decodeGetramp_eq_ok_iff (hop : opcodeField w = op) :
    decodeGetramp c w = .ok i ↔ ∃ x, w = commandWord op 0 0 x ∧ wfIndex c x = true ∧ .getramp x = i := by
  unfold decodeGetramp
  split_ifs <;> simp_all [eq_commandWord_iff]

theorem decodeSetinv_eq_ok_iff (hop : opcodeField w = op) :
    decodeSetinv w = .ok i ↔ ∃ b, w = commandWord op 0 0 (boolWord b) ∧ .setinv b = i := by
  simp only [eq_commandWord_iff]
  constructor
  · intro h
    unfold decodeSetinv at h
    split_ifs at h with hz hd
    cases h
    exact ⟨_, ⟨hop, hz.1, hz.2, (boolWord_of_le_one hd).symm⟩, rfl⟩
  · rintro ⟨b, ⟨-, ha, hr, hd⟩, rfl⟩
    rw [decodeSetinv, if_pos ⟨ha, hr⟩, hd, if_pos (boolWord_toNat_le b), boolWord_getLsbD_zero]

theorem decodeRdreg_eq_ok_iff (hop : opcodeField w = op) :
    decodeRdreg w = .ok i ↔ ∃ a : BitVec 7, w = commandWord op (a.setWidth 8) 0 0 ∧ .rdreg a = i := by
  simp only [eq_commandWord_iff]
  constructor
  · intro h
    unfold decodeRdreg at h
    split_ifs at h with hz ha
    cases h
    exact ⟨_, ⟨hop, (byte_toAddr_toByte _ ha).symm, hz⟩, rfl⟩
  · rintro ⟨a, ⟨-, ha, hz⟩, rfl⟩
    refine (if_pos hz).trans ?_
    rw [ha, if_pos (addr_toByte_le a), addr_toByte_toAddr]

theorem decodeWrreg_eq_ok_iff (hop : opcodeField w = op) :
    decodeWrreg w = .ok i ↔
      ∃ (a : BitVec 7) (v : Word), w = commandWord op (a.setWidth 8) 0 v ∧ .wrreg a v = i := by
  simp only [eq_commandWord_iff]
  constructor
  · intro h
    unfold decodeWrreg at h
    split_ifs at h with hr ha
    cases h
    exact ⟨_, _, ⟨hop, (byte_toAddr_toByte _ ha).symm, hr, rfl⟩, rfl⟩
  · rintro ⟨a, v, ⟨-, ha, hr, hd⟩, rfl⟩
    refine (if_pos hr).trans ?_
    rw [ha, if_pos (addr_toByte_le a), addr_toByte_toAddr, hd]

end

/-- A word that decodes is the encoding of its instruction, a well-formed one (R84, R85). -/
theorem encode_of_decodeCommand {c : Config} {w : Word64} {i : Instr} (h : decodeCommand c w = .ok i) :
    encode i = .command w ∧ i.wf c = true := by
  rcases decodeCommand_cases c w with ⟨hop, e⟩ | ⟨hop, e⟩ | ⟨hop, e⟩ | ⟨hop, e⟩ | ⟨hop, e⟩ | ⟨hop, e⟩ | ⟨hop, e⟩ |
    ⟨hop, e⟩ | ⟨hop, e⟩ | ⟨hop, e⟩ | ⟨hop, e⟩ | ⟨hop, e⟩ | ⟨hop, e⟩ | ⟨_, e⟩ <;> rw [e] at h
  · obtain ⟨rfl, rfl⟩ := (decodePlain_eq_ok_iff hop).mp h
    exact ⟨rfl, rfl⟩
  · obtain ⟨t, r, rfl, rfl⟩ := (decodeGoto_eq_ok_iff hop).mp h
    exact ⟨rfl, rfl⟩
  · obtain ⟨rfl, rfl⟩ := (decodePlain_eq_ok_iff hop).mp h
    exact ⟨rfl, rfl⟩
  · obtain ⟨rfl, rfl⟩ := (decodePlain_eq_ok_iff hop).mp h
    exact ⟨rfl, rfl⟩
  · obtain ⟨p, rfl, rfl⟩ := (decodeSetpos_eq_ok_iff hop).mp h
    exact ⟨rfl, rfl⟩
  · obtain ⟨b, rfl, rfl⟩ := (decodeSetinv_eq_ok_iff hop).mp h
    exact ⟨rfl, rfl⟩
  · obtain ⟨rfl, rfl⟩ := (decodePlain_eq_ok_iff hop).mp h
    exact ⟨rfl, rfl⟩
  · obtain ⟨rfl, rfl⟩ := (decodePlain_eq_ok_iff hop).mp h
    exact ⟨rfl, rfl⟩
  · obtain ⟨rfl, rfl⟩ := (decodePlain_eq_ok_iff hop).mp h
    exact ⟨rfl, rfl⟩
  · obtain ⟨rfl, rfl⟩ := (decodePlain_eq_ok_iff hop).mp h
    exact ⟨rfl, rfl⟩
  · obtain ⟨x, rfl, hx, rfl⟩ := (decodeGetramp_eq_ok_iff hop).mp h
    exact ⟨rfl, hx⟩
  · obtain ⟨a, rfl, rfl⟩ := (decodeRdreg_eq_ok_iff hop).mp h
    exact ⟨rfl, rfl⟩
  · obtain ⟨a, v, rfl, rfl⟩ := (decodeWrreg_eq_ok_iff hop).mp h
    exact ⟨rfl, rfl⟩
  · cases h

/-- The encoding of a well-formed command decodes to it (R81 to R84). -/
theorem decodeCommand_of_encode {c : Config} {w : Word64} {i : Instr} (h : encode i = .command w) (hwf : i.wf c = true) :
    decodeCommand c w = .ok i := by
  have hop (op a : Byte) (r : U16) (d : Word) := opcodeField_commandWord op a r d
  cases i <;> cases h
  case nop => rw [decodeCommand_of_opNop (hop ..), decodePlain_eq_ok_iff (hop ..)]; exact ⟨rfl, rfl⟩
  case goto t r => rw [decodeCommand_of_opGoto (hop ..), decodeGoto_eq_ok_iff (hop ..)]; exact ⟨t, r, rfl, rfl⟩
  case stop => rw [decodeCommand_of_opStop (hop ..), decodePlain_eq_ok_iff (hop ..)]; exact ⟨rfl, rfl⟩
  case ready => rw [decodeCommand_of_opReady (hop ..), decodePlain_eq_ok_iff (hop ..)]; exact ⟨rfl, rfl⟩
  case setpos p => rw [decodeCommand_of_opSetpos (hop ..), decodeSetpos_eq_ok_iff (hop ..)]; exact ⟨p, rfl, rfl⟩
  case setinv b => rw [decodeCommand_of_opSetinv (hop ..), decodeSetinv_eq_ok_iff (hop ..)]; exact ⟨b, rfl, rfl⟩
  case getpos => rw [decodeCommand_of_opGetpos (hop ..), decodePlain_eq_ok_iff (hop ..)]; exact ⟨rfl, rfl⟩
  case gettgt => rw [decodeCommand_of_opGettgt (hop ..), decodePlain_eq_ok_iff (hop ..)]; exact ⟨rfl, rfl⟩
  case getstat => rw [decodeCommand_of_opGetstat (hop ..), decodePlain_eq_ok_iff (hop ..)]; exact ⟨rfl, rfl⟩
  case getprof => rw [decodeCommand_of_opGetprof (hop ..), decodePlain_eq_ok_iff (hop ..)]; exact ⟨rfl, rfl⟩
  case getramp x => rw [decodeCommand_of_opGetramp (hop ..), decodeGetramp_eq_ok_iff (hop ..)]; exact ⟨x, rfl, hwf, rfl⟩
  case rdreg a => rw [decodeCommand_of_opRdreg (hop ..), decodeRdreg_eq_ok_iff (hop ..)]; exact ⟨a, rfl, rfl⟩
  case wrreg a v => rw [decodeCommand_of_opWrreg (hop ..), decodeWrreg_eq_ok_iff (hop ..)]; exact ⟨a, v, rfl, rfl⟩

/-- What a word of the port decodes to is the well-formed command whose encoding it is (R81 to R85). -/
theorem decodeCommand_eq_ok_iff {c : Config} {w : Word64} {i : Instr} :
    decodeCommand c w = .ok i ↔ encode i = .command w ∧ i.wf c = true :=
  ⟨encode_of_decodeCommand, fun ⟨h, hwf⟩ => decodeCommand_of_encode h hwf⟩

/-! Frames: byte 2 is the address with the write flag, and a request takes every other byte as it is (R89). -/

theorem readAddrByte_fields : ∀ a : BitVec 7, (readAddrByte a).getLsbD 7 = false ∧ (readAddrByte a).setWidth 7 = a := by
  decide

theorem writeAddrByte_fields : ∀ a : BitVec 7, (writeAddrByte a).getLsbD 7 = true ∧ (writeAddrByte a).setWidth 7 = a := by
  decide

theorem readAddrByte_toAddr : ∀ b : Byte, b.getLsbD 7 = false → readAddrByte (b.setWidth 7) = b := by decide

theorem writeAddrByte_toAddr : ∀ b : Byte, b.getLsbD 7 = true → writeAddrByte (b.setWidth 7) = b := by decide

theorem decodeSent_readReqBytes (sync node : Byte) (addr : BitVec 7) (crc : Byte) :
    decodeSent (readReqBytes sync node addr crc) = .ok (.frameReadReq sync node addr crc) := by
  obtain ⟨hflag, haddr⟩ := readAddrByte_fields addr
  simp only [readReqBytes, decodeSent, hflag, haddr, Bool.false_eq_true, if_false]

theorem decodeSent_writeReqBytes (sync node : Byte) (addr : BitVec 7) (v : Word) (crc : Byte) :
    decodeSent (writeReqBytes sync node addr v crc) = .ok (.frameWriteReq sync node addr v crc) := by
  obtain ⟨hflag, haddr⟩ := writeAddrByte_fields addr
  simp only [writeReqBytes, wordBytes, List.cons_append, List.nil_append, decodeSent, hflag, haddr, if_true,
    bytesWord_extract]

/-- What a frame to be sent decodes to is the request whose bytes it is (R89). -/
theorem decodeSent_eq_ok_iff {f : Frame} {i : Instr} : decodeSent f = .ok i ↔ encode i = .sent f := by
  constructor
  · intro h
    unfold decodeSent at h
    split at h
    case h_1 b0 b1 b2 b3 =>
      split_ifs at h with hflag
      cases h
      simp only [encode, readReqBytes, readAddrByte_toAddr b2 (by simpa using hflag)]
    case h_2 b0 b1 b2 b3 b4 b5 b6 b7 =>
      split_ifs at h with hflag
      cases h
      simp only [encode, writeReqBytes, writeAddrByte_toAddr b2 hflag, wordBytes_bytesWord, List.cons_append,
        List.nil_append]
    case h_3 => cases h
  · intro h
    cases i <;> cases h
    case frameReadReq.refl => exact decodeSent_readReqBytes ..
    case frameWriteReq.refl => exact decodeSent_writeReqBytes ..

/-- What received bytes decode to is the reply of these bytes (R89, R115). -/
theorem decodeReceived_eq_ok_iff {f : Frame} {i : Instr} : decodeReceived f = .ok i ↔ encode i = .received f := by
  constructor
  · intro h
    unfold decodeReceived at h
    split at h <;> cases h
    simp only [encode, replyBytes, wordBytes_bytesWord, List.cons_append, List.nil_append]
  · intro h
    cases i <;> cases h
    simp only [replyBytes, wordBytes, List.cons_append, List.nil_append, decodeReceived, bytesWord_extract]

/-- Settles O26, place by place: the encoder names the place, and its decoder reads the encoding back. -/
theorem decodeOfEncode : Obligations.DecodeOfEncode := by
  intro c i hwf
  cases h : encode i with
  | command w => exact decodeCommand_of_encode h hwf
  | sent f => exact decodeSent_eq_ok_iff.mpr h
  | received f => exact decodeReceived_eq_ok_iff.mpr h

/-- Settles O27, place by place. -/
theorem encodeOfDecode : Obligations.EncodeOfDecode := by
  intro c e i h
  cases e with
  | command w => exact (encode_of_decodeCommand h).1
  | sent f => exact decodeSent_eq_ok_iff.mp h
  | received f => exact decodeReceived_eq_ok_iff.mp h

end Sys2Proof.Machine
end

section
/-! Which words are commands: field by field as R84 says, and by the rows of spec/opcode_table.json. -/

namespace Sys2Proof.Machine

open Sys2Proof.Statements

theorem commandWord_inj {op op' a a' : Byte} {r r' : U16} {d d' : Word} :
    commandWord op a r d = commandWord op' a' r' d' ↔ op = op' ∧ a = a' ∧ r = r' ∧ d = d' := by
  simp [eq_commandWord_iff]

theorem exists_boolWord_iff {d : Word} : (∃ b, d = boolWord b) ↔ d.toNat ≤ 1 :=
  ⟨fun ⟨b, h⟩ => h ▸ boolWord_toNat_le b, fun h => ⟨_, (boolWord_of_le_one h).symm⟩⟩

theorem exists_addr_iff {b : Byte} : (∃ a : BitVec 7, b = a.setWidth 8) ↔ b.toNat ≤ 0x7F :=
  ⟨fun ⟨a, h⟩ => h ▸ addr_toByte_le a, fun h => ⟨_, (byte_toAddr_toByte b h).symm⟩⟩

/-! The fields of R84. -/

/-- The fields of a well-formed command's word are legal (R84). -/
theorem legalWord_of_encode {c : Config} {op a : Byte} {r : U16} {d : Word} {i : Instr}
    (h : encode i = .command (commandWord op a r d)) (hwf : i.wf c = true) : LegalWord c op a r d := by
  unfold LegalWord
  generalize hw : commandWord op a r d = w at h
  cases i <;> cases h <;> obtain ⟨rfl, rfl, rfl, rfl⟩ := commandWord_inj.mp hw
  case nop | stop | ready | getpos | gettgt | getstat | getprof => exact .inl (by decide)
  case goto => exact .inr (.inl ⟨rfl, rfl⟩)
  case setpos => exact .inr (.inr (.inl ⟨rfl, rfl, rfl⟩))
  case setinv b => exact .inr (.inr (.inr (.inl ⟨rfl, rfl, rfl, boolWord_toNat_le b⟩)))
  case getramp => exact .inr (.inr (.inr (.inr (.inl ⟨rfl, rfl, rfl, of_decide_eq_true hwf⟩))))
  case rdreg a => exact .inr (.inr (.inr (.inr (.inr (.inl ⟨rfl, addr_toByte_le a, rfl, rfl⟩)))))
  case wrreg a => exact .inr (.inr (.inr (.inr (.inr (.inr ⟨rfl, addr_toByte_le a, rfl⟩)))))

/-- Legal fields are those of a well-formed command (R84). -/
theorem encode_of_legalWord {c : Config} {op a : Byte} {r : U16} {d : Word} (h : LegalWord c op a r d) :
    ∃ i, encode i = .command (commandWord op a r d) ∧ i.wf c = true := by
  rcases h with ⟨ho, ha, hr, hd⟩ | ⟨ho, ha⟩ | ⟨ho, ha, hr⟩ | ⟨ho, ha, hr, hd⟩ | ⟨ho, ha, hr, hd⟩ | ⟨ho, ha, hr, hd⟩ |
    ⟨ho, ha, hr⟩
  · obtain rfl : a = 0 := BitVec.eq_of_toNat_eq ha
    obtain rfl : r = 0 := BitVec.eq_of_toNat_eq hr
    obtain rfl : d = 0 := BitVec.eq_of_toNat_eq hd
    simp only [List.mem_cons, List.not_mem_nil, or_false] at ho
    rcases ho with ho | ho | ho | ho | ho | ho | ho
    · obtain rfl : op = opNop := BitVec.eq_of_toNat_eq ho
      exact ⟨.nop, rfl, rfl⟩
    · obtain rfl : op = opStop := BitVec.eq_of_toNat_eq ho
      exact ⟨.stop, rfl, rfl⟩
    · obtain rfl : op = opReady := BitVec.eq_of_toNat_eq ho
      exact ⟨.ready, rfl, rfl⟩
    · obtain rfl : op = opGetpos := BitVec.eq_of_toNat_eq ho
      exact ⟨.getpos, rfl, rfl⟩
    · obtain rfl : op = opGettgt := BitVec.eq_of_toNat_eq ho
      exact ⟨.gettgt, rfl, rfl⟩
    · obtain rfl : op = opGetstat := BitVec.eq_of_toNat_eq ho
      exact ⟨.getstat, rfl, rfl⟩
    · obtain rfl : op = opGetprof := BitVec.eq_of_toNat_eq ho
      exact ⟨.getprof, rfl, rfl⟩
  · obtain rfl : a = 0 := BitVec.eq_of_toNat_eq ha
    obtain rfl : op = opGoto := BitVec.eq_of_toNat_eq ho
    exact ⟨.goto d r, rfl, rfl⟩
  · obtain rfl : a = 0 := BitVec.eq_of_toNat_eq ha
    obtain rfl : r = 0 := BitVec.eq_of_toNat_eq hr
    obtain rfl : op = opSetpos := BitVec.eq_of_toNat_eq ho
    exact ⟨.setpos d, rfl, rfl⟩
  · obtain rfl : a = 0 := BitVec.eq_of_toNat_eq ha
    obtain rfl : r = 0 := BitVec.eq_of_toNat_eq hr
    obtain ⟨b, rfl⟩ := exists_boolWord_iff.mpr hd
    obtain rfl : op = opSetinv := BitVec.eq_of_toNat_eq ho
    exact ⟨.setinv b, rfl, rfl⟩
  · obtain rfl : a = 0 := BitVec.eq_of_toNat_eq ha
    obtain rfl : r = 0 := BitVec.eq_of_toNat_eq hr
    obtain rfl : op = opGetramp := BitVec.eq_of_toNat_eq ho
    exact ⟨.getramp d, rfl, decide_eq_true hd⟩
  · obtain ⟨a, rfl⟩ := exists_addr_iff.mpr ha
    obtain rfl : r = 0 := BitVec.eq_of_toNat_eq hr
    obtain rfl : d = 0 := BitVec.eq_of_toNat_eq hd
    obtain rfl : op = opRdreg := BitVec.eq_of_toNat_eq ho
    exact ⟨.rdreg a, rfl, rfl⟩
  · obtain ⟨a, rfl⟩ := exists_addr_iff.mpr ha
    obtain rfl : r = 0 := BitVec.eq_of_toNat_eq hr
    obtain rfl : op = opWrreg := BitVec.eq_of_toNat_eq ho
    exact ⟨.wrreg a d, rfl, rfl⟩

/-- A word is a command exactly when its fields are legal (R84, R85). -/
theorem legalWord_iff_decodes {c : Config} {op a : Byte} {r : U16} {d : Word} :
    LegalWord c op a r d ↔ ∃ i, decodeCommand c (portWord op a r d) = .ok i := by
  simp only [portWord_eq_commandWord, decodeCommand_eq_ok_iff]
  exact ⟨encode_of_legalWord, fun ⟨_, h, hwf⟩ => legalWord_of_encode h hwf⟩

/-- Any other word is answered `ILLEGAL`, whatever the block is doing (R86). -/
theorem acceptCommand_of_not_legalWord {op a : Byte} {r : U16} {d : Word} {s : State} (h : ¬ LegalWord s.cfg op a r d) :
    acceptCommand (portWord op a r d) s = .next (illegal s op) := by
  have herr : ∃ e, decodeCommand s.cfg (portWord op a r d) = .error e := by
    cases he : decodeCommand s.cfg (portWord op a r d) with
    | ok i => exact absurd (legalWord_iff_decodes.mpr ⟨i, he⟩) h
    | error e => exact ⟨e, rfl⟩
  exact (acceptCommand_eq_ite (i := .nop) False False.elim fun _ => herr).trans (if_neg id)

/-- A host's move at a free port accepts the word presented (R80; log 4). -/
theorem step_host_accepts {s : State} {us : List Turn} {w : Word64} {ws : List Word64} (hw : s.cfg.wf = true)
    (hr : s.rsp = none) (hp : s.link.phase = .idle) (hq : s.cmdQueue = w :: ws) :
    step (scheduled s (.host :: us)) = acceptCommand w { s with turns := us, cmdQueue := ws } := by
  rw [step_scheduled hw]
  simp [performTurn, hostMove, scheduled, cmdReady, hr, hp, hq]

/-- Settles O30, from the equivalence with the encoder. -/
theorem illegalWordsAreAnswered : Obligations.IllegalWordsAreAnswered := fun _ _ _ _ _ =>
  ⟨legalWord_iff_decodes, acceptCommand_of_not_legalWord, fun _ _ hl hw hr hp hq =>
    (step_host_accepts hw hr hp hq).trans (acceptCommand_of_not_legalWord hl)⟩

/-! The rows of the table: the words whose bits under a row's mask are its match (spec/opcode_table.json). -/

/-- A row's match is its opcode and zeros, and its mask takes the whole opcode in. -/
theorem and_row_iff {w mask val : Word64} (op ma : Byte) (mr : U16) (md : Word)
    (hmask : mask = commandWord (BitVec.allOnes 8) ma mr md) (hval : val = commandWord op 0 0 0) :
    w &&& mask = val ↔
      opcodeField w = op ∧ addrField w &&& ma = 0#8 ∧ rpmField w &&& mr = 0#16 ∧ dataField w &&& md = 0#32 := by
  subst hmask hval
  have hand : w &&& commandWord (BitVec.allOnes 8) ma mr md =
      commandWord (opcodeField w) (addrField w &&& ma) (rpmField w &&& mr) (dataField w &&& md) := by
    obtain ⟨ho, ha, hr, hd⟩ := eq_commandWord_iff.mp (Eq.refl (commandWord (BitVec.allOnes 8) ma mr md))
    rw [eq_commandWord_iff]
    refine ⟨?_, ?_, ?_, ?_⟩
    · exact BitVec.extractLsb'_and.trans ((congrArg (opcodeField w &&& ·) ho).trans BitVec.and_allOnes)
    · exact BitVec.extractLsb'_and.trans (congrArg (addrField w &&& ·) ha)
    · exact BitVec.extractLsb'_and.trans (congrArg (rpmField w &&& ·) hr)
    · exact BitVec.extractLsb'_and.trans (congrArg (dataField w &&& ·) hd)
  rw [hand, commandWord_inj]
  rfl

/-- Under a mask of all bits from `k` up, a field is zero exactly when its number is below `2 ^ k`. -/
theorem and_high_eq_zero_iff {n : Nat} (k : Nat) (x : BitVec n) :
    x &&& (BitVec.allOnes n <<< k) = 0#n ↔ x.toNat < 2 ^ k := by
  constructor
  · intro h
    refine Nat.lt_pow_two_of_testBit _ fun i hi => ?_
    by_cases hn : i < n
    · have hbit : (x &&& BitVec.allOnes n <<< k).getLsbD i = (0#n).getLsbD i := by rw [h]
      rw [BitVec.testBit_toNat]
      simpa [hn, Nat.not_lt.mpr hi, show i - k < n by omega, BitVec.getLsbD_eq_getElem hn] using hbit
    · exact BitVec.getLsbD_of_ge x i (Nat.le_of_not_lt hn)
  · intro h
    apply BitVec.eq_of_getLsbD_eq
    intro i hi
    by_cases hk : i < k
    · simp [hk]
    · have hx : x.getLsbD i = false :=
        Nat.testBit_lt_two_pow (h.trans_le (Nat.pow_le_pow_right (by decide) (Nat.le_of_not_lt hk)))
      rw [BitVec.getLsbD_and, hx, Bool.false_and, BitVec.getLsbD_zero]

theorem and_boolMask_iff {d : Word} : d &&& (BitVec.allOnes 32 <<< 1) = 0#32 ↔ ∃ b, d = boolWord b :=
  (and_high_eq_zero_iff 1 d).trans (Nat.lt_succ_iff.trans exists_boolWord_iff.symm)

theorem and_addrMask_iff {b : Byte} : b &&& (BitVec.allOnes 8 <<< 7) = 0#8 ↔ ∃ a : BitVec 7, b = a.setWidth 8 :=
  (and_high_eq_zero_iff 7 b).trans (Nat.lt_succ_iff.trans exists_addr_iff.symm)

section
variable {w : Word64}

theorem and_fullRow_iff {v : Word64} : w &&& 0xFFFFFFFFFFFFFFFF = v ↔ w = v := by
  rw [show (0xFFFFFFFFFFFFFFFF : Word64) = .allOnes 64 from rfl, BitVec.and_allOnes]

theorem and_gotoRow_iff :
    w &&& 0xFFFF000000000000 = 0x0100000000000000 ↔ ∃ t r, w = commandWord opGoto 0 r t := by
  refine (and_row_iff opGoto (BitVec.allOnes 8) 0#16 0#32 rfl rfl).trans ?_
  simp only [BitVec.and_allOnes, eq_commandWord_iff]
  simp

theorem and_setposRow_iff :
    w &&& 0xFFFFFFFF00000000 = 0x0400000000000000 ↔ ∃ p, w = commandWord opSetpos 0 0 p := by
  refine (and_row_iff opSetpos (BitVec.allOnes 8) (BitVec.allOnes 16) 0#32 rfl rfl).trans ?_
  simp only [BitVec.and_allOnes, eq_commandWord_iff]
  simp

theorem and_setinvRow_iff :
    w &&& 0xFFFFFFFFFFFFFFFE = 0x0500000000000000 ↔ ∃ b, w = commandWord opSetinv 0 0 (boolWord b) := by
  refine (and_row_iff opSetinv (BitVec.allOnes 8) (BitVec.allOnes 16) (BitVec.allOnes 32 <<< 1) rfl rfl).trans ?_
  rw [and_boolMask_iff]
  simp only [BitVec.and_allOnes, eq_commandWord_iff, exists_and_left]
  rfl

theorem and_getrampRow_iff :
    w &&& 0xFFFFFFFFFFFFFFC0 = 0x0C00000000000000 ↔
      ∃ x, w = commandWord opGetramp 0 0 x ∧ wfIndex Config.default x = true := by
  refine (and_row_iff opGetramp (BitVec.allOnes 8) (BitVec.allOnes 16) (BitVec.allOnes 32 <<< 6) rfl rfl).trans ?_
  rw [and_high_eq_zero_iff]
  simp only [BitVec.and_allOnes, eq_commandWord_iff, wfIndex, decide_eq_true_eq]
  simp [Config.default, and_assoc]

theorem and_rdregRow_iff :
    w &&& 0xFF80FFFFFFFFFFFF = 0x1000000000000000 ↔ ∃ a : BitVec 7, w = commandWord opRdreg (a.setWidth 8) 0 0 := by
  refine (and_row_iff opRdreg (BitVec.allOnes 8 <<< 7) (BitVec.allOnes 16) (BitVec.allOnes 32) rfl rfl).trans ?_
  rw [and_addrMask_iff]
  simp only [BitVec.and_allOnes, eq_commandWord_iff, exists_and_left, exists_and_right]
  rfl

theorem and_wrregRow_iff :
    w &&& 0xFF80FFFF00000000 = 0x1100000000000000 ↔
      ∃ (a : BitVec 7) (v : Word), w = commandWord opWrreg (a.setWidth 8) 0 v := by
  refine (and_row_iff opWrreg (BitVec.allOnes 8 <<< 7) (BitVec.allOnes 16) 0#32 rfl rfl).trans ?_
  rw [and_addrMask_iff]
  simp only [BitVec.and_allOnes, eq_commandWord_iff, exists_and_left, exists_and_right]
  simp

end

/-- The word of a well-formed command has its row (spec/opcode_table.json). -/
theorem tableRow_of_encode {w : Word64} {i : Instr} (h : encode i = .command w) (hwf : i.wf Config.default = true) :
    ∃ row, tableRow i = some row ∧ w &&& row.2 = row.1 := by
  cases i <;> cases h
  case nop | stop | ready | getpos | gettgt | getstat | getprof => exact ⟨_, rfl, and_fullRow_iff.mpr rfl⟩
  case goto t r => exact ⟨_, rfl, and_gotoRow_iff.mpr ⟨t, r, rfl⟩⟩
  case setpos p => exact ⟨_, rfl, and_setposRow_iff.mpr ⟨p, rfl⟩⟩
  case setinv b => exact ⟨_, rfl, and_setinvRow_iff.mpr ⟨b, rfl⟩⟩
  case getramp x => exact ⟨_, rfl, and_getrampRow_iff.mpr ⟨x, rfl, hwf⟩⟩
  case rdreg a => exact ⟨_, rfl, and_rdregRow_iff.mpr ⟨a, rfl⟩⟩
  case wrreg a v => exact ⟨_, rfl, and_wrregRow_iff.mpr ⟨a, v, rfl⟩⟩

/-- A word that has a row is the word of a well-formed command of that row (spec/opcode_table.json). -/
theorem encode_of_tableRow {w : Word64} {j : Instr} {row : Word64 × Word64} (hrow : tableRow j = some row)
    (h : w &&& row.2 = row.1) :
    ∃ i, encode i = .command w ∧ i.wf Config.default = true ∧ tableRow i = some row := by
  cases j <;> cases hrow
  case nop => exact ⟨.nop, congrArg _ (and_fullRow_iff.mp h).symm, rfl, rfl⟩
  case stop => exact ⟨.stop, congrArg _ (and_fullRow_iff.mp h).symm, rfl, rfl⟩
  case ready => exact ⟨.ready, congrArg _ (and_fullRow_iff.mp h).symm, rfl, rfl⟩
  case getpos => exact ⟨.getpos, congrArg _ (and_fullRow_iff.mp h).symm, rfl, rfl⟩
  case gettgt => exact ⟨.gettgt, congrArg _ (and_fullRow_iff.mp h).symm, rfl, rfl⟩
  case getstat => exact ⟨.getstat, congrArg _ (and_fullRow_iff.mp h).symm, rfl, rfl⟩
  case getprof => exact ⟨.getprof, congrArg _ (and_fullRow_iff.mp h).symm, rfl, rfl⟩
  case goto =>
    obtain ⟨t, r, rfl⟩ := and_gotoRow_iff.mp h
    exact ⟨.goto t r, rfl, rfl, rfl⟩
  case setpos =>
    obtain ⟨p, rfl⟩ := and_setposRow_iff.mp h
    exact ⟨.setpos p, rfl, rfl, rfl⟩
  case setinv =>
    obtain ⟨b, rfl⟩ := and_setinvRow_iff.mp h
    exact ⟨.setinv b, rfl, rfl, rfl⟩
  case getramp =>
    obtain ⟨x, rfl, hx⟩ := and_getrampRow_iff.mp h
    exact ⟨.getramp x, rfl, hx, rfl⟩
  case rdreg =>
    obtain ⟨a, rfl⟩ := and_rdregRow_iff.mp h
    exact ⟨.rdreg a, rfl, rfl, rfl⟩
  case wrreg =>
    obtain ⟨a, v, rfl⟩ := and_wrregRow_iff.mp h
    exact ⟨.wrreg a v, rfl, rfl, rfl⟩

/-- Settles O28, row by row: the words of a row are the encodings of its instructions. -/
theorem tableRowsMatchDecoder : Obligations.TableRowsMatchDecoder := by
  refine ⟨fun w i h => ?_, fun w j row hrow h => ?_⟩
  · obtain ⟨henc, hwf⟩ := encode_of_decodeCommand h
    exact tableRow_of_encode henc hwf
  · obtain ⟨i, henc, hwf, hi⟩ := encode_of_tableRow hrow h
    exact ⟨i, decodeCommand_of_encode henc hwf, hi⟩

end Sys2Proof.Machine
end

section
/-! What a step fetches and runs: the command at a free port, the frame about to be sent, the reply that completes, and a number of
the opcode table placed at any of the three; what the port does meanwhile (R80, R112, R241). -/

namespace Sys2Proof.Machine

open Sys2Proof.Statements

/-! The three fetches. -/

theorem acceptCommand_of_decodes {s : State} {w : Word64} {i : Instr} (h : decodeCommand s.cfg w = .ok i) :
    acceptCommand w s = exec i s := by
  rw [acceptCommand, h]

theorem sendFrame_of_decodes {s : State} {i : Instr} (h : decodeSent s.link.txFrame = .ok i) : sendFrame s = exec i s := by
  rw [sendFrame, h]

theorem linkStep_of_sending {s : State} (h : s.link.phase = .rFlushSend ∨ s.link.phase = .wFlushSend) :
    linkStep s = sendFrame s := by
  rcases h with h | h <;> rw [linkStep, h]

theorem replyDone_of_decodes {s : State} {got : List Byte} {i : Instr} (h : decodeReceived got = .ok i) :
    replyDone got s = exec i s := by
  rw [replyDone, h]

/-- Settles O31: the free port accepts the word, which decodes. -/
theorem stepRunsDecodedCommand : Obligations.StepRunsDecodedCommand := fun _ _ _ _ _ hw hr hp hq hi =>
  (step_host_accepts hw hr hp hq).trans (acceptCommand_of_decodes hi)

/-- Settles O34, along the branches of the host's move. -/
theorem portWaitsAndHandsOver : Obligations.PortWaitsAndHandsOver := by
  refine ⟨fun s us hw hr hp => ?_, fun s us r hw hr => ?_, fun s => ?_⟩
  · rw [step_scheduled hw]
    rcases hostMove_cases (scheduled s us) with ⟨r, hr', _⟩ | ⟨_, _, h⟩ | ⟨w, ws, _, _, hp', _⟩
    · exact absurd (hr.symm.trans hr') nofun
    · exact h
    · exact absurd hp' hp
  · rw [step_scheduled hw]
    rcases hostMove_cases (scheduled s us) with ⟨r', hr', h⟩ | ⟨hr', _⟩ | ⟨_, _, hr', _⟩
    · obtain rfl : r = r' := Option.some.inj (hr.symm.trans hr')
      exact h
    · exact absurd (hr.symm.trans hr') nofun
    · exact absurd (hr.symm.trans hr') nofun
  · simp [cmdReady]

/-! Placing an instruction where the next step fetches it (log 3). -/

/-- The port's decoder looks at `CAPACITY` alone of the parameters (R84). -/
theorem decodeCommand_congr {c c' : Config} (h : c.capacity = c'.capacity) (w : Word64) :
    decodeCommand c w = decodeCommand c' w := by
  have hx : ∀ x, wfIndex c x = wfIndex c' x := fun x => by rw [wfIndex, wfIndex, h]
  simp only [decodeCommand, decodeGetramp, hx]

/-- Only the port's decoder looks at the parameters, and at `CAPACITY` alone (R84, R89). -/
theorem decode_congr {c c' : Config} (h : c.capacity = c'.capacity) (e : Encoded) : decode c e = decode c' e := by
  cases e with
  | command w => exact decodeCommand_congr h w
  | sent f => rfl
  | received f => rfl

/-- A placed request stands in its sending phase (R113, R114). -/
theorem placeSent_link {s : State} {i : Instr} {f : Frame} (hi : decodeSent f = .ok i) :
    ((placeSent f s).link.phase = .rFlushSend ∨ (placeSent f s).link.phase = .wFlushSend) ∧
      (placeSent f s).link.txFrame = f := by
  rcases decodeSent_cases hi with ⟨_, _, _, _, rfl⟩ | ⟨_, _, _, _, _, rfl⟩
  · simp [placeSent, hi]
  · simp [placeSent, hi]

/-- A reply has the eight bytes its receive call asks for (R115). -/
theorem length_of_decodeReceived {f : Frame} {i : Instr} (hi : decodeReceived f = .ok i) : f.length = 8 := by
  unfold decodeReceived at hi
  split at hi
  · rfl
  · cases hi

/-- What a placed instruction finds when the step runs it: the block's motion as it was, the schedule and the host's words less
what was placed, the logs as they were. -/
structure RunsFrom (s u : State) : Prop where
  motion : SameMotion s u
  turns : u.turns = s.turns
  cmdQueue : u.cmdQueue = s.cmdQueue
  txLog : u.txLog = s.txLog
  pulseLog : u.pulseLog = s.pulseLog

section
variable {s : State} {i : Instr} (hw : s.cfg.wf = true)
include hw

theorem step_placeCommand {w : Word64} (hi : decodeCommand s.cfg w = .ok i) :
    ∃ u, step (placeCommand w s) = exec i u ∧ RunsFrom s u :=
  ⟨{ placeCommand w s with turns := s.turns, cmdQueue := s.cmdQueue },
    stepRunsDecodedCommand (placeCommand w s) s.turns w s.cmdQueue i hw rfl rfl rfl hi, ⟨rfl, rfl, rfl⟩, rfl, rfl, rfl, rfl⟩

theorem step_placeSent {f : Frame} (hi : decodeSent f = .ok i) :
    ∃ u, step (placeSent f s) = exec i u ∧ RunsFrom s u := by
  obtain ⟨hphase, hframe⟩ := placeSent_link (s := s) hi
  refine ⟨scheduled (placeSent f s) s.turns, ?_, ⟨rfl, rfl, rfl⟩, rfl, rfl, rfl, rfl⟩
  calc step (placeSent f s)
      = linkStep (scheduled (placeSent f s) s.turns) := step_of_turn (s := placeSent f s) hw rfl
    _ = sendFrame (scheduled (placeSent f s) s.turns) := linkStep_of_sending hphase
    _ = exec i (scheduled (placeSent f s) s.turns) := sendFrame_of_decodes (hframe.symm ▸ hi)

theorem step_placeReceived {f : Frame} (hi : decodeReceived f = .ok i) :
    ∃ u, step (placeReceived f s) = exec i u ∧ RunsFrom s u := by
  refine ⟨{ placeReceived f s with turns := s.turns, wire := s.wire }, ?_, ⟨rfl, rfl, rfl⟩, rfl, rfl, rfl, rfl⟩
  have hgot : f.take 8 = f := List.take_of_length_le (length_of_decodeReceived hi).le
  calc step (placeReceived f s)
      = linkStep (scheduled (placeReceived f s) s.turns) := step_of_turn (s := placeReceived f s) hw rfl
    _ = replyDone (f.take 8) { placeReceived f s with turns := s.turns, wire := s.wire } := rfl
    _ = exec i { placeReceived f s with turns := s.turns, wire := s.wire } := by
      rw [hgot, replyDone_of_decodes hi]

/-- The step after placing an encoding runs the instruction it decodes to, at each of the three places (R80, R112, R113). -/
theorem step_place {e : Encoded} (hi : decode s.cfg e = .ok i) : ∃ u, step (place e s) = exec i u ∧ RunsFrom s u := by
  cases e with
  | command w => exact step_placeCommand hw hi
  | sent f => exact step_placeSent hw hi
  | received f => exact step_placeReceived hw hi

end

/-- The number of an instruction stands for an encoding, and its placing is that encoding's. -/
theorem tableEncoded_of_decodeTableWord {nbits w : Nat} {i : Instr} (h : decodeTableWord nbits w = some i) :
    ∃ e, tableEncoded nbits w = some e ∧ decode Config.default e = .ok i := by
  obtain ⟨e, he, hi⟩ := Option.bind_eq_some_iff.mp h
  refine ⟨e, he, ?_⟩
  cases hd : decode Config.default e with
  | ok j => rw [hd] at hi; exact congrArg _ (Option.some.inj hi)
  | error _ => rw [hd] at hi; cases hi

/-- Settles O33: a number of the table is an encoding, and a placed encoding is run. -/
theorem stepRunsPlacedWord : Obligations.StepRunsPlacedWord := by
  intro s nbits w i hw hcap h
  obtain ⟨e, he, hi⟩ := tableEncoded_of_decodeTableWord h
  obtain ⟨u, hstep, hu⟩ := step_place hw ((decode_congr hcap e).trans hi)
  refine ⟨u, ?_, hu.motion, hu.turns, hu.cmdQueue, hu.txLog, hu.pulseLog⟩
  rw [State.withFetchWord, he]
  exact hstep

/-! The request frames, and fixed words. -/

/-- Settles O15: the bytes of the statement are the model's, and a flushed receiver has nothing for the call that opens. -/
theorem requestsGoOut : Obligations.RequestsGoOut := by
  refine ⟨fun sync node addr crc s => ?_, fun sync node addr value crc s => ?_⟩
  · rw [← readAddrByte_eq_ofNat]
    rfl
  · rw [← writeAddrByte_eq_ofNat]
    rfl

/-- Settles O29: each word and frame is the encoding of what it stands for. -/
theorem wordsDecodeAsWritten : Obligations.WordsDecodeAsWritten :=
  ⟨decodeCommand_of_encode rfl rfl, decodeCommand_of_encode rfl rfl, decodeCommand_of_encode rfl rfl,
    decodeCommand_of_encode rfl rfl, decodeSent_eq_ok_iff.mpr rfl, decodeSent_eq_ok_iff.mpr rfl,
    decodeReceived_eq_ok_iff.mpr rfl⟩

end Sys2Proof.Machine
end

section
/-! The frames of the Register Link: their bytes as the statements write them, their round trips, and what the checksum detects
(R110, R113 to R115, R122). -/

namespace Sys2Proof.Machine

open Sys2Proof.Statements

/-! Validity, and the bytes of the statements. -/

/-- A frame is valid when its last byte is the checksum of the bytes before it (R115, R122). -/
@[simp] theorem frameValid_concat (h : List Byte) (c : Byte) : frameValid (h ++ [c]) = (crc8 h == c) := by
  simp [frameValid]

theorem frameValid_sealed (h : List Byte) : frameValid (sealed h) = true := by
  rw [sealed, frameValid_concat, beq_self_eq_true]

theorem byteOf_eq_extractLsb' (v : Word) (k : Nat) : byteOf v k = v.extractLsb' (8 * k) 8 := by
  apply BitVec.eq_of_getLsbD_eq
  intro i hi
  simp [byteOf, hi]

/-- The bytes of a value, counted from either end (R64). -/
theorem wordBytes_eq_byteOf (v : Word) : wordBytes v = [byteOf v 3, byteOf v 2, byteOf v 1, byteOf v 0] := by
  simp only [byteOf_eq_extractLsb']
  rfl

theorem replyBytes_eq_byteOf (h0 h1 h2 : Byte) (v : Word) (c : Byte) :
    replyBytes h0 h1 h2 v c = [h0, h1, h2, byteOf v 3, byteOf v 2, byteOf v 1, byteOf v 0] ++ [c] := by
  rw [replyBytes, wordBytes_eq_byteOf]
  rfl

theorem goodReply_eq_sealed (addr : BitVec 7) (v : Word) :
    goodReply addr v =
      sealed [0x05#8, 0xFF#8, BitVec.ofNat 8 addr.toNat, byteOf v 3, byteOf v 2, byteOf v 1, byteOf v 0] := by
  rw [goodReply, wordBytes_eq_byteOf, readAddrByte_eq_ofNat]
  rfl

/-- The well-behaved reply is the encoding of the reply that carries `v` (R89, R115). -/
theorem goodReply_eq_replyBytes (addr : BitVec 7) (v : Word) :
    ∃ c, goodReply addr v = replyBytes 0x05 0xFF (BitVec.ofNat 8 addr.toNat) v c :=
  ⟨_, by rw [← readAddrByte_eq_ofNat]; rfl⟩

/-- Settles O23: each frame is sealed by its checksum, and is the encoding of the instruction that carries `v`. -/
theorem framesRoundTrip : Obligations.FramesRoundTrip := by
  intro c addr v
  obtain ⟨crc, hreply⟩ := goodReply_eq_replyBytes addr v
  refine ⟨?_, ?_, ?_, writeRequest_eq_writeFrame c addr v, readRequest_eq_readFrame c addr, goodReply_eq_sealed addr v,
    ⟨crc, ?_⟩, ⟨_, _, _, decodeSent_writeRequest c addr v⟩⟩
  · rw [writeRequest_eq_writeFrame]
    exact frameValid_sealed _
  · rw [readRequest_eq_readFrame]
    exact frameValid_sealed _
  · rw [goodReply_eq_sealed]
    exact frameValid_sealed _
  · rw [decodeReceived_eq_ok_iff, hreply, encode]

/-! The checksum is linear over exclusive or, so two messages of one length differ in their checksums as their difference does. -/

theorem crcBit_eq_xor (c : Byte) (m : Bool) : crcBit c m = c <<< 1 ^^^ if c.getLsbD 7 ^^ m then 0x07#8 else 0#8 := by
  rw [crcBit]
  split <;> simp

theorem ite_bool_xor (a b : Bool) (x : Byte) :
    (if a ^^ b then x else 0#8) = (if a then x else 0#8) ^^^ (if b then x else 0#8) := by
  cases a <;> cases b <;> simp

theorem crcBit_xor (c c' : Byte) (m m' : Bool) : crcBit (c ^^^ c') (m ^^ m') = crcBit c m ^^^ crcBit c' m' := by
  simp only [crcBit_eq_xor, BitVec.shiftLeft_xor_distrib, BitVec.getLsbD_xor, ite_bool_xor]
  ac_rfl

theorem crcByte_xor (c c' b b' : Byte) : crcByte (c ^^^ c') (b ^^^ b') = crcByte c b ^^^ crcByte c' b' := by
  simp only [crcByte, BitVec.getLsbD_xor]
  generalize List.range 8 = js
  induction js generalizing c c' with
  | nil => rfl
  | cons j js ih => rw [List.foldl_cons, List.foldl_cons, List.foldl_cons, crcBit_xor, ih]

theorem eq_zero_of_crcByte_zero_left : ∀ b : Byte, crcByte 0#8 b = 0#8 → b = 0#8 := by decide +kernel

theorem eq_zero_of_crcByte_zero_right : ∀ c : Byte, crcByte c 0#8 = 0#8 → c = 0#8 := by decide +kernel

/-- Two different bytes leave different checksums. -/
theorem crcByte_right_injective (c : Byte) : Function.Injective (crcByte c) := by
  intro b b' h
  have hx := crcByte_xor c c b b'
  rw [h, BitVec.xor_self, BitVec.xor_self] at hx
  exact BitVec.xor_eq_zero_iff.mp (eq_zero_of_crcByte_zero_left _ hx)

/-- The same byte keeps different checksums different. -/
theorem crcByte_left_injective (b : Byte) : Function.Injective (crcByte · b) := by
  intro c c' h
  have hx := crcByte_xor c c' b b
  dsimp only at h
  rw [h, BitVec.xor_self, BitVec.xor_self] at hx
  exact BitVec.xor_eq_zero_iff.mp (eq_zero_of_crcByte_zero_right _ hx)

theorem foldl_crcByte_injective (d : List Byte) : Function.Injective (d.foldl crcByte) := by
  induction d with
  | nil => exact Function.injective_id
  | cons b d ih => exact ih.comp (crcByte_left_injective b)

/-- Messages that differ in one byte have different checksums (R122). -/
theorem crc8_set_ne {d : List Byte} {i : Nat} (hi : i < d.length) {b : Byte} (hb : d[i] ≠ b) : crc8 (d.set i b) ≠ crc8 d := by
  intro h
  rw [List.set_eq_take_append_cons_drop, if_pos hi] at h
  conv at h => rhs; rw [← List.take_append_drop i d, List.drop_eq_getElem_cons hi]
  simp only [crc8, List.foldl_append, List.foldl_cons] at h
  exact hb (crcByte_right_injective _ (foldl_crcByte_injective _ h)).symm

/-- Settles O24: a changed last byte is no longer the checksum, and any other change gives another checksum. -/
theorem singleByteCorruptionDetected : Obligations.SingleByteCorruptionDetected := by
  intro f i b hvalid hi hb
  obtain rfl | ⟨h, c, rfl⟩ := List.eq_nil_or_concat f
  · exact absurd hi (Nat.not_lt_zero i)
  simp only [List.concat_eq_append] at *
  rw [frameValid_concat, beq_iff_eq] at hvalid
  rw [List.getD_eq_getElem _ _ hi] at hb
  rcases Nat.lt_or_ge i h.length with hlt | hge
  · rw [List.getElem_append_left hlt] at hb
    rw [List.set_append_left _ _ hlt, frameValid_concat, beq_eq_false_iff_ne, ← hvalid]
    exact crc8_set_ne hlt hb
  · obtain rfl : i = h.length := by
      rw [List.length_append, List.length_singleton] at hi
      omega
    rw [List.getElem_concat_length rfl] at hb
    rw [List.set_append_right _ _ hge, Nat.sub_self, List.set_cons_zero, frameValid_concat, beq_eq_false_iff_ne, hvalid]
    exact hb

end Sys2Proof.Machine
end

section
/-! Neither unit sees the other (R121): PULSE and TICK in a state with other link fields, LINK in a state with other fields of the
other agents. -/

namespace Sys2Proof.Machine

open Sys2Proof.Statements

/-! PULSE and TICK with other link fields. -/

@[simp] theorem mapNext_next (f : State → State) (s : State) : mapNext f (.next s) = .next (f s) := rfl

section
variable (l : LinkState) (held : List Byte) (tx : List Frame) (s : State)

theorem pulse_withLink : pulse (withLink l held tx s) = withLink l held tx (pulse s) := by
  unfold pulse
  rw [apply_ite (withLink l held tx)]
  rfl

theorem selectLevel_withLink (i : Nat) :
    selectLevel i (withLink l held tx s) = mapNext (withLink l held tx) (selectLevel i s) := by
  rcases selectLevel_cases i s with ⟨hi, e⟩ | ⟨hi, e⟩ <;> rw [e]
  · rcases selectLevel_cases i (withLink l held tx s) with ⟨_, e'⟩ | ⟨hi', _⟩
    · exact e'
    · exact absurd hi' (Nat.not_le.mpr hi)
  · rcases selectLevel_cases i (withLink l held tx s) with ⟨hi', _⟩ | ⟨_, e'⟩
    · exact absurd hi (Nat.not_le.mpr hi')
    · exact e'

/-- TICK's conditions read the motion and profile fields, and each of its branches writes these and `period` only (R158). -/
theorem tick_withLink : tick (withLink l held tx s) = mapNext (withLink l held tx) (tick s) := by
  unfold tick tickDirect tickRamped
  simp only [apply_ite (mapNext (withLink l held tx)), ← selectLevel_withLink]
  rfl

end

/-! LINK with other fields of the other agents. -/

/-- `o` with the fields of `s` that the Register Link reads and writes: the parameters, the sequencer, the receiver, WIRE, the
transmit log and the response on offer. -/
def graftLink (o s : State) : State :=
  { o with
    cfg := s.cfg, link := s.link, rxHeld := s.rxHeld, rsp := s.rsp, txLog := s.txLog, wire := s.wire
    wireCalls := s.wireCalls }

/-- A state that differs in link fields only is its own link fields in the rest of the other. -/
theorem LinkOnly.graftLink {s t : State} (h : LinkOnly s t) : graftLink s t = t := by
  obtain ⟨hcfg, hmotion, hprofile, htimers, hpulse, hrsp, hqueue, hturns⟩ := h
  rw [Machine.graftLink, ← hmotion, ← hprofile, ← htimers, ← hpulse, ← hrsp, ← hqueue, ← hturns]

section
variable (o s : State)

theorem finishRead_graftLink (st : Status) (v : Word) :
    finishRead st v (graftLink o s) = graftLink o (finishRead st v s) := by
  simp only [finishRead, apply_ite (graftLink o)]
  rfl

theorem failRead_graftLink (e : Status) : failRead e (graftLink o s) = graftLink o (failRead e s) := by
  simp only [failRead, apply_ite (graftLink o), ← finishRead_graftLink]
  rfl

theorem arriveAll_graftLink (bs : List Byte) : arriveAll bs (graftLink o s) = graftLink o (arriveAll bs s) := by
  refine List.foldl_hom (graftLink o) fun t b => ?_
  rw [arrive, arrive, apply_ite (graftLink o)]
  rfl

theorem wireNext_graftLink : wireNext (graftLink o s) = graftLink o (wireNext s) := by
  simp only [wireNext, graftLink]
  cases s.wire <;> rfl

theorem wireAnswer_graftLink : wireAnswer (graftLink o s) = wireAnswer s := rfl

theorem sendFrame_graftLink : sendFrame (graftLink o s) = mapNext (graftLink o) (sendFrame s) := by
  simp only [sendFrame, graftLink]
  cases hi : decodeSent s.link.txFrame with
  | error _ => rfl
  | ok i => rcases decodeSent_cases hi with ⟨_, _, _, _, rfl⟩ | ⟨_, _, _, _, _, rfl⟩ <;> rfl

/-- What is received is a reply (R115). -/
theorem decodeReceived_cases {f : Frame} {i : Instr} (h : decodeReceived f = .ok i) :
    ∃ h0 h1 h2 v c, i = .frameReply h0 h1 h2 v c ∧ f = replyBytes h0 h1 h2 v c := by
  rw [decodeReceived_eq_ok_iff] at h
  cases i <;> cases h
  exact ⟨_, _, _, _, _, rfl, rfl⟩

theorem replyDone_graftLink (got : List Byte) :
    replyDone got (graftLink o s) = mapNext (graftLink o) (replyDone got s) := by
  unfold replyDone
  cases hi : decodeReceived got with
  | error _ => exact congrArg _ (failRead_graftLink o s _)
  | ok i =>
    obtain ⟨_, _, _, _, _, rfl, _⟩ := decodeReceived_cases hi
    simp only [exec, execFrameReply, finishRead_graftLink, failRead_graftLink, apply_ite (mapNext (graftLink o))]
    rfl

theorem receiveDone_graftLink (got : List Byte) :
    receiveDone got (graftLink o s) = mapNext (graftLink o) (receiveDone got s) := by
  have hlink : (graftLink o s).link = s.link := rfl
  unfold receiveDone
  rw [hlink]
  cases s.link.phase with
  | rEcho =>
    simp only [echoDone, failRead_graftLink, mapNext_next, apply_ite (graftLink o)]
    rfl
  | rReply => exact replyDone_graftLink o s got
  | wEcho => rfl
  | idle => rfl
  | rFlushSend => rfl
  | wFlushSend => rfl
  | wDelay => rfl
  | respond => rfl

theorem receiveCall_graftLink : receiveCall (graftLink o s) = mapNext (graftLink o) (receiveCall s) := by
  rw [receiveCall, wireNext_graftLink, receiveDone_graftLink]
  rfl

theorem receiveMicro_graftLink : receiveMicro (graftLink o s) = mapNext (graftLink o) (receiveMicro s) := by
  simp only [receiveMicro, wireNext_graftLink, wireAnswer_graftLink, arriveAll_graftLink, receiveDone_graftLink,
    apply_ite (mapNext (graftLink o))]
  rfl

/-- A LINK step of the event level does the same to the link fields whatever the other fields are (R121). -/
theorem linkStep_graftLink : linkStep (graftLink o s) = mapNext (graftLink o) (linkStep s) := by
  have hlink : (graftLink o s).link = s.link := rfl
  unfold linkStep
  rw [hlink]
  cases s.link.phase with
  | idle => rfl
  | rFlushSend => exact sendFrame_graftLink o s
  | rEcho => exact receiveCall_graftLink o s
  | rReply => exact receiveCall_graftLink o s
  | wFlushSend => exact sendFrame_graftLink o s
  | wEcho => exact receiveCall_graftLink o s
  | wDelay => rfl
  | respond => rfl

/-- A LINK step of the timed level does the same to the link fields whatever the other fields are (R121). -/
theorem linkTimed_graftLink : linkTimed (graftLink o s) = mapNext (graftLink o) (linkTimed s) := by
  have hlink : (graftLink o s).link = s.link := rfl
  unfold linkTimed
  rw [hlink]
  cases s.link.phase with
  | idle => rfl
  | rFlushSend => exact sendFrame_graftLink o s
  | rEcho => exact receiveMicro_graftLink o s
  | rReply => exact receiveMicro_graftLink o s
  | wFlushSend => exact sendFrame_graftLink o s
  | wEcho => exact receiveMicro_graftLink o s
  | wDelay =>
    simp only [apply_ite (mapNext (graftLink o))]
    rfl
  | respond => rfl

end

/-- Where an outcome differs from `s` in link fields only, grafting it into a changed `s` is making the change to the outcome. -/
theorem mapNext_graftLink {s : State} {out : Outcome} (ho : ∀ t, out = .next t → LinkOnly s t) {f : State → State}
    (hf : ∀ t, graftLink (f s) t = f (graftLink s t)) : mapNext (graftLink (f s)) out = mapNext f out := by
  cases out with
  | next t => rw [mapNext_next, hf, (ho t rfl).graftLink, mapNext_next]
  | fault r => rfl
  | refused r => rfl

theorem linkStep_withMotion (m : MotionState) (p : VelocityProfile) (ti : Timers) (s : State) :
    linkStep (withMotion m p ti s) = mapNext (withMotion m p ti) (linkStep s) :=
  (linkStep_graftLink (withMotion m p ti s) s).trans (mapNext_graftLink (fun _ => linkStep_linkOnly) fun _ => rfl)

theorem linkTimed_withMotion (m : MotionState) (p : VelocityProfile) (ti : Timers) (s : State) :
    linkTimed (withMotion m p ti s) = mapNext (withMotion m p ti) (linkTimed s) :=
  (linkTimed_graftLink (withMotion m p ti s) s).trans (mapNext_graftLink (fun _ => linkTimed_linkOnly) fun _ => rfl)

/-- The schedule is no link field either. -/
theorem linkStep_scheduled (s : State) (us : List Turn) :
    linkStep (scheduled s us) = mapNext (scheduled · us) (linkStep s) :=
  (linkStep_graftLink (scheduled s us) s).trans
    (mapNext_graftLink (f := (scheduled · us)) (fun _ => linkStep_linkOnly) fun _ => rfl)

/-- Settles O56, agent by agent. -/
theorem linkAndMotionDoNotSeeEachOther : Obligations.LinkAndMotionDoNotSeeEachOther :=
  ⟨fun s l held tx => ⟨pulse_withLink l held tx s, tick_withLink l held tx s⟩,
    fun s m p ti => ⟨linkStep_withMotion m p ti s, linkTimed_withMotion m p ti s⟩⟩

end Sys2Proof.Machine
end

section
/-! What a receive call takes at the timed level, the frames that LINK runs at either level, and what a reply does to the attempt
that waits for it (R112, R115 to R119). -/

namespace Sys2Proof.Machine

open Sys2Proof.Statements

/-! Receive calls. -/

theorem linkStep_of_receiving {s : State} (h : s.link.phase = .rEcho ∨ s.link.phase = .rReply ∨ s.link.phase = .wEcho) :
    linkStep s = receiveCall s := by
  rcases h with h | h | h <;> rw [linkStep, h]

theorem linkTimed_of_sending {s : State} (h : s.link.phase = .rFlushSend ∨ s.link.phase = .wFlushSend) :
    linkTimed s = sendFrame s := by
  rcases h with h | h <;> rw [linkTimed, h]

theorem linkTimed_of_receiving {s : State} (h : s.link.phase = .rEcho ∨ s.link.phase = .rReply ∨ s.link.phase = .wEcho) :
    linkTimed s = receiveMicro s := by
  rcases h with h | h | h <;> rw [linkTimed, h]

theorem receiveDone_of_rReply {s : State} (h : s.link.phase = .rReply) (got : List Byte) :
    receiveDone got s = replyDone got s := by
  rw [receiveDone, h]

/-- A call that waits for a reply runs the reply it gets (R115, R116). -/
theorem receiveDone_of_reply (s : State) {got : List Byte} {i : Instr} (h : s.link.phase = .rReply)
    (hi : decodeReceived got = .ok i) : receiveDone got s = exec i s :=
  (receiveDone_of_rReply h got).trans (replyDone_of_decodes hi)

/-- The state after WIRE's answer `a` has gone to the open call as far as it asks for it, the rest being held (R112). -/
def taken (a : List Byte) (as : List (List Byte)) (s : State) : State :=
  { s with
    wire := as
    rxHeld := s.rxHeld ++ (s.link.rx ++ a).drop s.link.phase.expects
    link := { s.link with rx := (s.link.rx ++ a).take s.link.phase.expects } }

/-- A call of the timed level waits on while it has neither its bytes nor run out of time, and else returns what it has (R112). -/
theorem receiveMicro_of_wire {s : State} {a : List Byte} {as : List (List Byte)} (hwire : s.wire = a :: as)
    (hrx : s.link.rx.length ≤ s.link.phase.expects) :
    receiveMicro s =
      if ((s.link.rx ++ a).take s.link.phase.expects).length < s.link.phase.expects ∧
          s.link.waitUs < s.cfg.rxTimeoutMs * 1000 then .next (taken a as s)
      else receiveDone ((s.link.rx ++ a).take s.link.phase.expects) (taken a as s) := by
  have harrive : arriveAll (wireAnswer s) (wireNext s) = taken a as s := by
    rw [wireNext, wireAnswer, hwire]
    exact arriveAll_spec a hrx
  have hover : receiveOver (taken a as s) = true ↔
      ¬ (((s.link.rx ++ a).take s.link.phase.expects).length < s.link.phase.expects ∧
        s.link.waitUs < s.cfg.rxTimeoutMs * 1000) := by
    rw [receiveOver, decide_eq_true_eq, not_and_or, not_lt, not_lt]
    rfl
  simp only [receiveMicro, harrive, hover, ite_not]
  rfl

/-- Settles O20: the receive call, the byte that arrives by a move of its own, and the delay. -/
theorem timedReceiveEndsByBytesOrTime : Obligations.TimedReceiveEndsByBytesOrTime := by
  refine ⟨fun s us a as hw hp hrx hwire => ?_, fun s us b hw => ?_, fun s us hw hp => ?_⟩ <;> rw [step_scheduled hw]
  · exact (linkTimed_of_receiving (s := scheduled s us) hp).trans (receiveMicro_of_wire (s := scheduled s us) hwire hrx)
  · rfl
  · have hdelay : performTurn .linkTimed (scheduled s us) =
        if s.cfg.verifyDelayMs * 1000 ≤ s.link.waitUs then .next (beginRead (scheduled s us)) else .next (scheduled s us) := by
      rw [performTurn, linkTimed, show (scheduled s us).link.phase = .wDelay from hp]
      rfl
    rw [hdelay]
    split_ifs with hover hlt hlt
    · exact absurd hover (Nat.not_le.mpr hlt)
    · rfl
    · rfl
    · exact absurd (Nat.not_le.mp hover) hlt

/-- The event level drops an answer's surplus where the timed level holds it: the answer itself gives the same reply (R112). -/
theorem receiveCall_of_wire {s : State} {a : List Byte} {as : List (List Byte)} (hwire : s.wire = a :: as) :
    receiveCall s = receiveDone ((s.link.rx ++ a).take s.link.phase.expects) { s with wire := as } := by
  rw [receiveCall, received, wireAnswer, wireNext, hwire]

/-- Settles O32: the sending phases, then the reply at each level. -/
theorem stepRunsDecodedFrame : Obligations.StepRunsDecodedFrame := by
  refine ⟨fun s us u i hw hp hu hi => ?_, fun s us a as i hw hp hwire hi => ?_,
    fun s us a as i hw hp hwire hrx hi => ?_⟩ <;> rw [step_scheduled hw]
  · have hsend : sendFrame (scheduled s us) = exec i (scheduled s us) := sendFrame_of_decodes hi
    rcases hu with rfl | rfl
    · exact (linkStep_of_sending (s := scheduled s us) hp).trans hsend
    · exact (linkTimed_of_sending (s := scheduled s us) hp).trans hsend
  · have hexp : (scheduled s us).link.phase.expects = 8 := congrArg LinkPhase.expects hp
    calc linkStep (scheduled s us)
        = receiveCall (scheduled s us) := linkStep_of_receiving (.inr (.inl hp))
      _ = receiveDone ((s.link.rx ++ a).take 8) { s with turns := us, wire := as } := hexp ▸ receiveCall_of_wire hwire
      _ = exec i { s with turns := us, wire := as } := receiveDone_of_reply _ hp hi
  · have hexp : (scheduled s us).link.phase.expects = 8 := congrArg LinkPhase.expects hp
    have hlen : ((s.link.rx ++ a).take 8).length = 8 := length_of_decodeReceived hi
    have hmicro := receiveMicro_of_wire (s := scheduled s us) hwire (hexp ▸ hrx)
    rw [hexp] at hmicro
    calc linkTimed (scheduled s us)
        = receiveMicro (scheduled s us) := linkTimed_of_receiving (.inr (.inl hp))
      _ = receiveDone ((s.link.rx ++ a).take 8) (taken a as (scheduled s us)) :=
        hmicro.trans (if_neg fun h => hlen.not_lt h.1)
      _ = exec i (taken a as (scheduled s us)) := receiveDone_of_reply _ hp hi
      _ = _ := by rw [taken, hexp]; rfl

/-! The reply. -/

/-- With one attempt of two done there is no other: a count below `LINK_ATTEMPTS` after one more is 0 now (R8). -/
theorem succ_lt_linkAttempts_iff {n : Nat} : n + 1 < linkAttempts ↔ n = 0 := by
  rw [linkAttempts]
  omega

theorem execFrameReply_of_waiting {s : State} (hp : s.link.phase = .rReply) (h0 h1 h2 : Byte) (v : Word) (c : Byte) :
    execFrameReply h0 h1 h2 v c s =
      .next (if crc8 [h0, h1, h2, byteOf v 3, byteOf v 2, byteOf v 1, byteOf v 0] = c then finishRead .ok v s
        else failRead .crc s) := by
  rw [execFrameReply, if_pos hp, replyBytes_eq_byteOf, frameValid_concat]
  simp only [beq_iff_eq, apply_ite Host.Outcome.next]

/-- The end of a read, as the statements write it (R117 to R119). -/
theorem finishRead_eq_ite (st : Status) (v : Word) (s : State) :
    finishRead st v s =
      if s.link.isWrite = false then responding s s.link st v
      else if st = .ok ∧ v = s.link.data then responding s s.link .ok 0
      else if s.link.writeAttempts = 0 then writingAgain s 1 s.link
      else responding s s.link .verifyFailed 0 := by
  rcases finishRead_cases st v s with ⟨hw, e⟩ | ⟨hw, hst, hv, e⟩ | ⟨hw, hne, ha, e⟩ | ⟨hw, hne, ha, e⟩ <;> rw [e]
  · rw [if_pos hw]
    rfl
  · rw [if_neg (by simp [hw]), if_pos ⟨hst, hv⟩]
    rfl
  · rw [succ_lt_linkAttempts_iff] at ha
    rw [if_neg (by simp [hw]), if_neg hne, if_pos ha, ha]
    rfl
  · have ha : s.link.writeAttempts ≠ 0 := fun h0 => absurd (succ_lt_linkAttempts_iff.mpr h0) (Nat.not_lt.mpr ha)
    rw [if_neg (by simp [hw]), if_neg hne, if_neg ha]
    rfl

/-- A failed read attempt, as the statements write it (R116). -/
theorem failRead_eq_ite (e : Status) (s : State) :
    failRead e s =
      if s.link.readAttempts = 0 then readingAgain s 1 e else finishRead e 0 { s with link := { s.link with err := e } } := by
  rw [failRead]
  simp only [succ_lt_linkAttempts_iff]
  split_ifs with ha
  · rw [ha]
    rfl
  · rfl

/-- Settles O16: a reply that no attempt waits for is held; a waiting attempt ends by the checksum. -/
theorem replyEndsOrRetriesAttempt : Obligations.ReplyEndsOrRetriesAttempt := by
  intro h0 h1 h2 v c s
  dsimp only
  by_cases hp : s.link.phase = .rReply
  · rw [if_neg (not_not.mpr hp), exec, execFrameReply_of_waiting hp, failRead_eq_ite, finishRead_eq_ite, finishRead_eq_ite]
    simp only [true_and, reduceCtorEq, false_and, if_false]
    rfl
  · rw [if_pos hp, exec, execFrameReply, if_neg hp, replyBytes_eq_byteOf, List.append_assoc]

end Sys2Proof.Machine
end

section
/-! A transaction as a run of LINK steps: the sequencer does what the procedures of R116 and R117 do on the answers that WIRE gives
(R112, R116 to R119, R123). -/

namespace Sys2Proof.Machine

open Sys2Proof.Statements

/-! Runs of LINK steps. -/

/-- LINK steps of the event level lead from one state to another, and start from these phases. -/
inductive LinkRun : State → List LinkPhase → State → Prop where
  | done (s : State) : LinkRun s [] s
  | step {s t u : State} {p : LinkPhase} {ps : List LinkPhase} (hp : s.link.phase = p) (h : linkStep s = .next t)
      (hr : LinkRun t ps u) : LinkRun s (p :: ps) u

theorem LinkRun.trans {s t u : State} {ps qs : List LinkPhase} (h : LinkRun s ps t) (h' : LinkRun t qs u) :
    LinkRun s (ps ++ qs) u := by
  induction h with
  | done s => exact h'
  | step hp hs _ ih => exact .step hp hs (ih h')

theorem step_scheduled_link {s t : State} (hw : s.cfg.wf = true) (h : linkStep s = .next t) (us : List Turn) :
    step (scheduled s (.link :: us)) = .next (scheduled t us) := by
  rw [step_scheduled hw, performTurn, linkStep_scheduled, h, mapNext_next]

theorem run_succ_of_step {s t : State} (h : step s = .next t) (n : Nat) :
    Host.Core.run core (n + 1) s = Host.Core.run core n t := by
  have hcore : core.step s = .next t := h
  simp only [Host.Core.run, hcore]

/-- A run of LINK steps is a run of the machine with as many scheduled. -/
theorem LinkRun.run {s t : State} {ps : List LinkPhase} (h : LinkRun s ps t) (hw : s.cfg.wf = true) :
    Host.Core.run core ps.length (scheduled s (List.replicate ps.length .link)) = .next (scheduled t []) := by
  induction h with
  | done s => rfl
  | @step s t u p ps hp hs _ ih =>
    rw [List.length_cons, List.replicate_succ, run_succ_of_step (step_scheduled_link hw hs _)]
    exact ih ((linkStep_linkOnly hs).cfg ▸ hw)

theorem linkPhases_scheduled (n : Nat) (s : State) (us : List Turn) : linkPhases n (scheduled s us) = linkPhases n s := by
  cases n <;> rfl

theorem LinkRun.linkPhases {s t : State} {ps : List LinkPhase} (h : LinkRun s ps t) (hw : s.cfg.wf = true) :
    linkPhases ps.length s = ps := by
  induction h with
  | done s => rfl
  | step hp hs _ ih =>
    rw [List.length_cons, Statements.linkPhases, step_scheduled_link hw hs, hp]
    dsimp only
    rw [linkPhases_scheduled, ih ((linkStep_linkOnly hs).cfg ▸ hw)]

/-- Among these phases are `frames` that send, `calls` receive calls and `delays` delays, and none is RESPOND (R123). -/
structure PhaseCounts (ps : List LinkPhase) (frames calls delays : Nat) : Prop where
  length : ps.length = frames + calls + delays
  calls : ps.countP receives = calls
  delays : ps.count .wDelay = delays
  responds : ps.count .respond = 0

theorem PhaseCounts.append {ps qs : List LinkPhase} {f c d f' c' d' : Nat} (h : PhaseCounts ps f c d)
    (h' : PhaseCounts qs f' c' d') : PhaseCounts (ps ++ qs) (f + f') (c + c') (d + d') where
  length := by rw [List.length_append, h.length, h'.length]; omega
  calls := by rw [List.countP_append, h.calls, h'.calls]
  delays := by rw [List.count_append, h.delays, h'.delays]
  responds := by rw [List.count_append, h.responds, h'.responds]

/-! What a transaction leaves: answers taken, frames sent, a receiver that was flushed, and another sequencer. -/

/-- `s` after `n` answers of WIRE, past the listed ones if need be, and `frames` sent, with the sequencer `l`. -/
def advance (n : Nat) (frames : List Frame) (l : LinkState) (s : State) : State :=
  { s with
    link := l, rxHeld := [], txLog := s.txLog ++ frames, wire := s.wire.drop n
    wireCalls := s.wireCalls + (n - s.wire.length) }

theorem advance_advance (n m : Nat) (fs gs : List Frame) (l l' : LinkState) (s : State) :
    advance m gs l' (advance n fs l s) = advance (n + m) (fs ++ gs) l' s := by
  have hcalls : s.wireCalls + (n - s.wire.length) + (m - (s.wire.length - n)) = s.wireCalls + (n + m - s.wire.length) := by
    omega
  simp only [advance, List.append_assoc, List.drop_drop, List.length_drop, hcalls]

theorem wireNext_advance (n : Nat) (fs : List Frame) (l : LinkState) (s : State) :
    wireNext (advance n fs l s) = advance (n + 1) fs l s := by
  cases hw : s.wire.drop n with
  | nil =>
    have hlen : s.wire.length ≤ n := List.drop_eq_nil_iff.mp hw
    have hcalls : s.wireCalls + (n - s.wire.length) + 1 = s.wireCalls + (n + 1 - s.wire.length) := by omega
    have htail : s.wire.drop (n + 1) = [] := List.drop_eq_nil_of_le (by omega)
    simp only [wireNext, advance, hw, hcalls, htail]
  | cons a as =>
    have hlen : n < s.wire.length := by
      by_contra hge
      rw [List.drop_eq_nil_of_le (Nat.not_lt.mp hge)] at hw
      cases hw
    have htail : s.wire.drop (n + 1) = as := by
      rw [← List.drop_drop, hw]
      rfl
    have hcalls : n - s.wire.length = n + 1 - s.wire.length := by omega
    simp only [wireNext, advance, hw, htail, hcalls]

/-- WIRE's answer after `n` others. -/
def answerAt (n : Nat) (s : State) : List Byte := wireAnswer (advance n [] s.link s)

theorem wireAnswer_advance (n : Nat) (fs : List Frame) (l : LinkState) (s : State) :
    wireAnswer (advance n fs l s) = answerAt n s := rfl

theorem answerAt_advance (i n : Nat) (fs : List Frame) (l : LinkState) (s : State) :
    answerAt i (advance n fs l s) = answerAt (n + i) s := by
  rw [answerAt, advance_advance]
  rfl

/-- WIRE answers `as` next. -/
def Answers (as : List (List Byte)) (s : State) : Prop := ∀ i, i < as.length → as.getD i [] = answerAt i s

theorem answers_wire (s : State) : Answers s.wire s := by
  intro i hi
  have hdrop := List.drop_eq_getElem_cons hi
  rw [answerAt, wireAnswer, advance, hdrop, List.getD_eq_getElem _ _ hi]

/-- Whatever WIRE answers, its next `n` answers are some list. -/
theorem exists_answers (n : Nat) (s : State) : ∃ as, as.length = n ∧ Answers as s := by
  refine ⟨(List.range n).map (answerAt · s), by rw [List.length_map, List.length_range], fun i hi => ?_⟩
  rw [List.getD_eq_getElem _ _ hi, List.getElem_map, List.getElem_range]

/-- `t` is `s` after `n` answers and `frames` sent, whatever its sequencer holds. -/
def Advanced (s : State) (n : Nat) (frames : List Frame) (t : State) : Prop := ∃ l, t = advance n frames l s

theorem Advanced.trans {s t u : State} {n m : Nat} {fs gs : List Frame} (h : Advanced s n fs t) (h' : Advanced t m gs u) :
    Advanced s (n + m) (fs ++ gs) u := by
  obtain ⟨l, rfl⟩ := h
  obtain ⟨l', rfl⟩ := h'
  exact ⟨l', advance_advance n m fs gs l l' s⟩

theorem Advanced.cfg {s t : State} {n : Nat} {fs : List Frame} (h : Advanced s n fs t) : t.cfg = s.cfg := by
  obtain ⟨_, rfl⟩ := h
  rfl

theorem Advanced.rxHeld {s t : State} {n : Nat} {fs : List Frame} (h : Advanced s n fs t) : t.rxHeld = [] := by
  obtain ⟨_, rfl⟩ := h
  rfl

/-- A flushed receiver and no more: nothing has been taken or sent. -/
theorem Advanced.of_flushed {s : State} (h : s.rxHeld = []) (l : LinkState) : Advanced s 0 [] { s with link := l } :=
  ⟨l, by simp only [advance, List.append_nil, List.drop_zero, Nat.zero_sub, Nat.add_zero, h]⟩

theorem Answers.advanced {s t : State} {n : Nat} {fs : List Frame} {as : List (List Byte)} (ha : Answers as s)
    (h : Advanced s n fs t) : Answers (as.drop n) t := by
  obtain ⟨l, rfl⟩ := h
  intro i hi
  rw [List.length_drop] at hi
  rw [answerAt_advance, ← ha (n + i) (by omega)]
  simp only [List.getD_eq_getElem?_getD, List.getElem?_drop]

/-! One read attempt. -/

/-- The sequencer in the receive call or delay `p` of its attempt, nothing received yet. -/
def receiving (p : LinkPhase) (l : LinkState) : LinkState := { l with phase := p, txFrame := [], rx := [], waitUs := 0 }

/-- Sending a request opens the call of its echo, with nothing held. -/
theorem openReceive_send (p : LinkPhase) (f : Frame) (s : State) :
    openReceive p (uartSend f (uartFlush s)) = advance 0 [f] (receiving p s.link) s := by
  simp only [openReceive, uartSend, uartFlush, advance, receiving, List.take_nil, List.drop_nil, List.drop_zero,
    Nat.zero_sub, Nat.add_zero]

/-- A receive call of a flushed receiver returns WIRE's answer, cut to what it asks for (R112; log 6). -/
theorem receiveCall_advance (n : Nat) (fs : List Frame) (p : LinkPhase) (l : LinkState) (s : State) :
    receiveCall (advance n fs (receiving p l) s) =
      receiveDone ((answerAt n s).take p.expects) (advance (n + 1) fs (receiving p l) s) := by
  rw [receiveCall, wireNext_advance, wireAnswer_advance]
  rfl

theorem tooShort_eq_shortError (got : List Byte) : tooShort got = shortError got := by
  simp only [tooShort, shortError, List.length_eq_zero_iff]

/-- What a reply call that returned `got` gives the read attempt (R115, R116). -/
def readReply (got : List Byte) : Except Status Word :=
  if got.length < 8 then .error (tooShort got)
  else if crc8 (got.take 7) = got.getD 7 0 then
    .ok ((got.getD 3 0).setWidth 32 <<< 24 ||| (got.getD 4 0).setWidth 32 <<< 16 |||
      (got.getD 5 0).setWidth 32 <<< 8 ||| (got.getD 6 0).setWidth 32)
  else .error .crc

/-- A read attempt is its echo call and, if the echo is complete, its reply call (R116). -/
theorem readAttempt_eq (as : List (List Byte)) :
    readAttempt as =
      if ((as.getD 0 []).take 4).length < 4 then (.error (shortError ((as.getD 0 []).take 4)), 1)
      else (readReply ((as.getD 1 []).take 8), 2) := by
  simp only [readAttempt, readReply, tooShort_eq_shortError]
  split_ifs <;> rfl

theorem join_byteOf (v : Word) :
    (byteOf v 3).setWidth 32 <<< 24 ||| (byteOf v 2).setWidth 32 <<< 16 ||| (byteOf v 1).setWidth 32 <<< 8 |||
      (byteOf v 0).setWidth 32 = v := by
  apply BitVec.eq_of_getLsbD_eq
  intro i hi
  simp only [byteOf_eq_extractLsb', BitVec.getLsbD_or, BitVec.getLsbD_shiftLeft, BitVec.getLsbD_setWidth,
    BitVec.getLsbD_extractLsb']
  by_cases h1 : i < 8
  · simp [h1, hi, show i < 16 by omega, show i < 24 by omega]
  · by_cases h2 : i < 16
    · simp [h1, h2, hi, show i < 24 by omega, show i - 8 < 8 by omega, show i - 8 < 32 by omega, show 8 + (i - 8) = i by omega]
    · by_cases h3 : i < 24
      · simp [h1, h2, h3, hi, show ¬ i - 8 < 8 by omega, show i - 16 < 8 by omega, show i - 16 < 32 by omega,
          show 16 + (i - 16) = i by omega]
      · simp [h1, h2, h3, hi, show ¬ i - 8 < 8 by omega, show ¬ i - 16 < 8 by omega, show i - 24 < 8 by omega,
          show i - 24 < 32 by omega, show 24 + (i - 24) = i by omega]

theorem readReply_replyBytes (h0 h1 h2 : Byte) (v : Word) (c : Byte) :
    readReply (replyBytes h0 h1 h2 v c) =
      if crc8 [h0, h1, h2, byteOf v 3, byteOf v 2, byteOf v 1, byteOf v 0] = c then .ok v else .error .crc := by
  have hv := join_byteOf v
  rw [replyBytes_eq_byteOf]
  simp only [readReply, List.cons_append, List.nil_append, List.length_cons, List.length_nil, List.take, List.getD_cons_succ,
    List.getD_cons_zero, hv]
  rfl

theorem decodeReceived_of_length {f : Frame} (h : f.length = 8) : ∃ i, decodeReceived f = .ok i := by
  match f, h with
  | [_, _, _, _, _, _, _, _], _ => exact ⟨_, rfl⟩

/-- A read attempt ends: the read has its value, or the attempt has failed (R116). -/
def endAttempt : Except Status Word → State → State
  | .ok v => finishRead .ok v
  | .error e => failRead e

/-- The reply call ends the attempt as the procedure has it (R115, R116). -/
theorem replyDone_eq_endAttempt {s : State} (hp : s.link.phase = .rReply) {got : List Byte} (hlen : got.length ≤ 8) :
    replyDone got s = .next (endAttempt (readReply got) s) := by
  cases hd : decodeReceived got with
  | ok i =>
    obtain ⟨h0, h1, h2, v, c, rfl, rfl⟩ := decodeReceived_cases hd
    rw [replyDone_of_decodes hd, exec, execFrameReply_of_waiting hp, readReply_replyBytes]
    split <;> rfl
  | error e =>
    have hne : got.length ≠ 8 := fun h8 => by
      obtain ⟨i, hi⟩ := decodeReceived_of_length h8
      cases hi.symm.trans hd
    rw [replyDone, hd, readReply, if_pos (lt_of_le_of_ne hlen hne), tooShort_eq_shortError]
    rfl

/-- The sequencer runs one read attempt as the procedure does, on the answers that WIRE gives (R116). -/
theorem readAttempt_run {s : State} {as : List (List Byte)} {res : Except Status Word} {n : Nat}
    (hp : s.link.phase = .rFlushSend) (hf : s.link.txFrame = readRequest s.cfg s.link.addr) (ha : Answers as s)
    (hr : readAttempt as = (res, n)) (hn : n ≤ as.length) :
    ∃ p ps, LinkRun s ps (endAttempt res (advance n [readFrame s.cfg s.link.addr] (receiving p s.link) s)) ∧
      PhaseCounts ps 1 n 0 := by
  have hsend : linkStep s = .next (advance 0 [readFrame s.cfg s.link.addr] (receiving .rEcho s.link) s) := by
    rw [linkStep_of_sending (.inl hp), sendFrame_readRequest hf, openReceive_send, readRequest_eq_readFrame]
  generalize [readFrame s.cfg s.link.addr] = fs at hsend ⊢
  have hecho : linkStep (advance 0 fs (receiving .rEcho s.link) s) =
      .next (echoDone ((answerAt 0 s).take 4) (advance 1 fs (receiving .rEcho s.link) s)) := by
    rw [linkStep_of_receiving (.inl rfl), receiveCall_advance]
    rfl
  rw [readAttempt_eq] at hr
  split at hr <;> rename_i hshort <;> cases hr
  · rw [ha 0 hn] at hshort ⊢
    rw [echoDone, if_pos hshort] at hecho
    exact ⟨.rEcho, _, .step hp hsend (.step rfl hecho (.done _)), rfl, rfl, rfl, rfl⟩
  · rw [ha 0 (by omega)] at hshort
    rw [ha 1 hn]
    have hopen : openReceive .rReply (advance 1 fs (receiving .rEcho s.link) s) =
        advance 1 fs (receiving .rReply s.link) s := rfl
    rw [echoDone, if_neg hshort, hopen] at hecho
    have hreply : linkStep (advance 1 fs (receiving .rReply s.link) s) =
        .next (endAttempt (readReply ((answerAt 1 s).take 8)) (advance 2 fs (receiving .rReply s.link) s)) := by
      rw [linkStep_of_receiving (.inr (.inl rfl)), receiveCall_advance, receiveDone_of_rReply rfl]
      exact replyDone_eq_endAttempt rfl (List.length_take_le 8 _)
    exact ⟨.rReply, _, .step hp hsend (.step rfl hecho (.step rfl hreply (.done _))), rfl, rfl, rfl, rfl⟩

/-! The two procedures. -/

/-- The two sequencers carry the same transaction, with as many write attempts done. -/
structure SameTransaction (l l' : LinkState) : Prop where
  isWrite : l'.isWrite = l.isWrite
  addr : l'.addr = l.addr
  data : l'.data = l.data
  writeAttempts : l'.writeAttempts = l.writeAttempts

theorem SameTransaction.trans {l l' l'' : LinkState} (h : SameTransaction l l') (h' : SameTransaction l' l'') :
    SameTransaction l l'' :=
  ⟨h'.isWrite.trans h.isWrite, h'.addr.trans h.addr, h'.data.trans h.data, h'.writeAttempts.trans h.writeAttempts⟩

/-- The procedure reads on after a failed attempt, while it has attempts left (R116). -/
theorem readRegister_of_error {c : Config} {addr : BitVec 7} {k n : Nat} {err e : Status} {as : List (List Byte)}
    (h : readAttempt as = (.error e, n)) :
    readRegister c addr (k + 1) err as =
      { readRegister c addr k e (as.drop n) with
        frames := readFrame c addr :: (readRegister c addr k e (as.drop n)).frames
        calls := n + (readRegister c addr k e (as.drop n)).calls } := by
  rw [readRegister, h]

theorem readRegister_of_ok {c : Config} {addr : BitVec 7} {k n : Nat} {err : Status} {v : Word} {as : List (List Byte)}
    (h : readAttempt as = (.ok v, n)) :
    readRegister c addr (k + 1) err as =
      { status := .ok, value := v, frames := [readFrame c addr], calls := n, delays := 0 } := by
  rw [readRegister, h]

/-- From `s` LINK runs a read that returns `r`, with `u` as the state before it. -/
def ReadRuns (s u : State) (r : Returned) : Prop :=
  ∃ t ps, LinkRun s ps (finishRead r.status r.value t) ∧ Advanced u r.calls r.frames t ∧ SameTransaction u.link t.link ∧
    PhaseCounts ps r.frames.length r.calls 0

/-- A transaction that the sequencer carries on is the one it began with. -/
theorem ReadRuns.with_link {s u : State} {l : LinkState} {r : Returned} (h : ReadRuns s { u with link := l } r)
    (hl : SameTransaction u.link l) : ReadRuns s u r := by
  obtain ⟨t, ps, hrun, hadv, hsame, hc⟩ := h
  exact ⟨t, ps, hrun, hadv, hl.trans hsame, hc⟩

/-- After a failed attempt with `k` attempts left, LINK runs what is left of the procedure (R116). -/
def FailedReadRuns (k : Nat) : Prop :=
  ∀ (u : State) (e : Status) (as : List (List Byte)), u.link.readAttempts + (k + 1) = linkAttempts → u.rxHeld = [] →
    Answers as u → (readRegister u.cfg u.link.addr k e as).calls ≤ as.length →
    ReadRuns (failRead e u) u (readRegister u.cfg u.link.addr k e as)

/-- An attempt runs, and where it fails the rest of the procedure does (R116). -/
theorem readRegister_runs_of_rest {k : Nat} (hrest : FailedReadRuns k) {s : State} (err : Status)
    {as : List (List Byte)} (hp : s.link.phase = .rFlushSend) (hf : s.link.txFrame = readRequest s.cfg s.link.addr)
    (hk : s.link.readAttempts + (k + 1) = linkAttempts) (ha : Answers as s)
    (hn : (readRegister s.cfg s.link.addr (k + 1) err as).calls ≤ as.length) :
    ReadRuns s s (readRegister s.cfg s.link.addr (k + 1) err as) := by
  obtain ⟨res, n, hr⟩ : ∃ res n, readAttempt as = (res, n) := ⟨_, _, rfl⟩
  cases res with
  | ok v =>
    rw [readRegister_of_ok hr] at hn ⊢
    obtain ⟨p, ps, hrun, hc⟩ := readAttempt_run hp hf ha hr hn
    exact ⟨_, ps, hrun, ⟨_, rfl⟩, ⟨rfl, rfl, rfl, rfl⟩, hc⟩
  | error e =>
    rw [readRegister_of_error hr] at hn ⊢
    dsimp only at hn
    obtain ⟨p, ps, hrun, hc⟩ := readAttempt_run hp hf ha hr (by omega)
    have hadv : Advanced s n [readFrame s.cfg s.link.addr] (advance n [readFrame s.cfg s.link.addr] (receiving p s.link) s) :=
      ⟨_, rfl⟩
    have hstart : SameTransaction s.link (advance n [readFrame s.cfg s.link.addr] (receiving p s.link) s).link :=
      ⟨rfl, rfl, rfl, rfl⟩
    have hleft : (readRegister s.cfg s.link.addr k e (as.drop n)).calls ≤ (as.drop n).length := by
      rw [List.length_drop]
      exact Nat.le_sub_of_add_le' hn
    obtain ⟨t, qs, hrun', hadv', hsame, hc'⟩ :=
      hrest (advance n _ (receiving p s.link) s) e (as.drop n) hk rfl (ha.advanced hadv) hleft
    refine ⟨t, ps ++ qs, hrun.trans hrun', hadv.trans hadv', hstart.trans hsame, ?_⟩
    rw [List.length_cons, Nat.add_comm _ 1]
    exact hc.append hc'

theorem failedReadRuns (k : Nat) : FailedReadRuns k := by
  induction k with
  | zero =>
    intro u e as hk hheld _ _
    rcases failRead_cases e u with ⟨hlt, _⟩ | ⟨_, h⟩
    · omega
    · exact ⟨{ u with link := { u.link with err := e } }, [], h ▸ .done _, .of_flushed hheld _, ⟨rfl, rfl, rfl, rfl⟩,
        rfl, rfl, rfl, rfl⟩
  | succ k ih =>
    intro u e as hk hheld ha hn
    rcases failRead_cases e u with ⟨_, h⟩ | ⟨hle, _⟩
    · rw [h]
      have hk' : u.link.readAttempts + 1 + (k + 1) = linkAttempts := by omega
      have hread := readRegister_runs_of_rest ih (s := beginReadAttempt
        { u with link := { u.link with readAttempts := u.link.readAttempts + 1, err := e } }) e rfl rfl hk' ha hn
      exact hread.with_link (u := u) ⟨rfl, rfl, rfl, rfl⟩
    · omega

/-- The sequencer runs `read_register` as the procedure does, on the answers that WIRE gives (R116). -/
theorem readRegister_runs {s : State} {as : List (List Byte)} (hp : s.link.phase = .rFlushSend)
    (hf : s.link.txFrame = readRequest s.cfg s.link.addr) (hk : s.link.readAttempts = 0) (ha : Answers as s)
    (hn : (readRegister s.cfg s.link.addr 2 .timeout as).calls ≤ as.length) :
    ReadRuns s s (readRegister s.cfg s.link.addr 2 .timeout as) :=
  readRegister_runs_of_rest (failedReadRuns 1) .timeout hp hf (by rw [hk]; rfl) ha hn

/-- A write attempt up to its read-back: the request, its echo and the delay (R117). -/
theorem writeRequest_run {s : State} (hp : s.link.phase = .wFlushSend)
    (hf : s.link.txFrame = writeRequest s.cfg s.link.addr s.link.data) :
    LinkRun s [.wFlushSend, .wEcho, .wDelay]
      (beginRead (advance 1 [writeFrame s.cfg s.link.addr s.link.data] (receiving .wDelay s.link) s)) := by
  have hsend : linkStep s =
      .next (advance 0 [writeFrame s.cfg s.link.addr s.link.data] (receiving .wEcho s.link) s) := by
    rw [linkStep_of_sending (.inr hp), sendFrame_writeRequest hf, openReceive_send, writeRequest_eq_writeFrame]
  generalize [writeFrame s.cfg s.link.addr s.link.data] = fs at hsend ⊢
  have hecho : linkStep (advance 0 fs (receiving .wEcho s.link) s) =
      .next (advance 1 fs (receiving .wDelay s.link) s) := by
    rw [linkStep_of_receiving (.inr (.inr rfl)), receiveCall_advance]
    rfl
  exact .step hp hsend (.step rfl hecho (.step rfl rfl (.done _)))

/-- From `s` LINK runs a write that returns `r`, with `u` as the state before it. -/
def WriteRuns (s u : State) (r : Returned) : Prop :=
  ∃ t ps, LinkRun s ps (enterRespond r.status r.value t) ∧ Advanced u r.calls r.frames t ∧ t.link.isWrite = true ∧
    PhaseCounts ps r.frames.length r.calls r.delays

/-- After a failed read-back with `k` attempts left, LINK runs what is left of the procedure (R117). -/
def FailedWriteRuns (k : Nat) : Prop :=
  ∀ (u : State) (st : Status) (v : Word) (as : List (List Byte)), u.link.isWrite = true →
    ¬(st = .ok ∧ v = u.link.data) → u.link.writeAttempts + (k + 1) = linkAttempts → u.rxHeld = [] → Answers as u →
    (writeRegister u.cfg u.link.addr u.link.data k as).calls ≤ as.length →
    WriteRuns (finishRead st v u) u (writeRegister u.cfg u.link.addr u.link.data k as)

/-- The procedure ends when its read-back gives the value written (R117). -/
theorem writeRegister_of_ok {c : Config} {addr : BitVec 7} {v : Word} {k : Nat} {as : List (List Byte)} {back : Returned}
    (hb : readRegister c addr 2 .timeout (as.drop 1) = back) (h : back.status = .ok ∧ back.value = v) :
    writeRegister c addr v (k + 1) as =
      { status := .ok, value := 0, frames := writeFrame c addr v :: back.frames, calls := 1 + back.calls, delays := 1 } := by
  subst hb
  exact if_pos h

/-- The procedure writes on after a failed read-back, while it has attempts left (R117). -/
theorem writeRegister_of_failed {c : Config} {addr : BitVec 7} {v : Word} {k : Nat} {as : List (List Byte)}
    {back r : Returned} (hb : readRegister c addr 2 .timeout (as.drop 1) = back) (h : ¬(back.status = .ok ∧ back.value = v))
    (hr : writeRegister c addr v k (as.drop (1 + back.calls)) = r) :
    writeRegister c addr v (k + 1) as =
      { r with
        frames := writeFrame c addr v :: back.frames ++ r.frames
        calls := 1 + back.calls + r.calls
        delays := 1 + r.delays } := by
  subst hb hr
  exact if_neg h

/-- A read-back of the value written ends the write (R117). -/
theorem finishRead_of_readBack {st : Status} {v : Word} {s : State} (hw : s.link.isWrite = true) (hst : st = .ok)
    (hv : v = s.link.data) : finishRead st v s = enterRespond .ok 0 s := by
  rw [finishRead, if_pos hw, if_pos ⟨hst, hv⟩]

/-- A write attempt up to the end of its read-back (R117). -/
theorem readBack_run {s : State} {as : List (List Byte)} {back : Returned} (hp : s.link.phase = .wFlushSend)
    (hf : s.link.txFrame = writeRequest s.cfg s.link.addr s.link.data) (ha : Answers as s)
    (hb : readRegister s.cfg s.link.addr 2 .timeout (as.drop 1) = back) (hn : 1 + back.calls ≤ as.length) :
    ∃ t ps, LinkRun s ps (finishRead back.status back.value t) ∧
      Advanced s (1 + back.calls) (writeFrame s.cfg s.link.addr s.link.data :: back.frames) t ∧
      SameTransaction s.link t.link ∧
      PhaseCounts ps (writeFrame s.cfg s.link.addr s.link.data :: back.frames).length (1 + back.calls) 1 := by
  have hrequest := writeRequest_run hp hf
  obtain ⟨b, hbegin⟩ :
      ∃ b, b = beginRead (advance 1 [writeFrame s.cfg s.link.addr s.link.data] (receiving .wDelay s.link) s) := ⟨_, rfl⟩
  rw [← hbegin] at hrequest
  have hadv : Advanced s 1 [writeFrame s.cfg s.link.addr s.link.data] b := ⟨_, hbegin⟩
  have hsame : SameTransaction s.link b.link := hbegin ▸ ⟨rfl, rfl, rfl, rfl⟩
  have hread :=
    readRegister_runs (s := b) (as := as.drop 1) (hbegin ▸ rfl) (hbegin ▸ rfl) (hbegin ▸ rfl) (ha.advanced hadv)
  rw [hadv.cfg, hsame.addr, hb, List.length_drop] at hread
  obtain ⟨t, ps, hrun, hadv', hsame', hc⟩ := hread (Nat.le_sub_of_add_le' hn)
  refine ⟨t, _, hrequest.trans hrun, hadv.trans hadv', hsame.trans hsame', ?_⟩
  have hcount : PhaseCounts [.wFlushSend, .wEcho, .wDelay] 1 1 1 := ⟨rfl, rfl, rfl, rfl⟩
  rw [List.length_cons, Nat.add_comm back.frames.length]
  exact hcount.append hc

/-- An attempt runs, and where its read-back fails the rest of the procedure does (R117). -/
theorem writeRegister_runs_of_rest {k : Nat} (hrest : FailedWriteRuns k) {s : State} {as : List (List Byte)}
    (hp : s.link.phase = .wFlushSend) (hf : s.link.txFrame = writeRequest s.cfg s.link.addr s.link.data)
    (hw : s.link.isWrite = true) (hk : s.link.writeAttempts + (k + 1) = linkAttempts) (ha : Answers as s)
    (hn : (writeRegister s.cfg s.link.addr s.link.data (k + 1) as).calls ≤ as.length) :
    WriteRuns s s (writeRegister s.cfg s.link.addr s.link.data (k + 1) as) := by
  obtain ⟨back, hb⟩ : ∃ back, readRegister s.cfg s.link.addr 2 .timeout (as.drop 1) = back := ⟨_, rfl⟩
  by_cases hok : back.status = .ok ∧ back.value = s.link.data
  · rw [writeRegister_of_ok hb hok] at hn ⊢
    obtain ⟨t, ps, hrun, hadv, hsame, hc⟩ := readBack_run hp hf ha hb hn
    have hwrite := hsame.isWrite.trans hw
    rw [finishRead_of_readBack hwrite hok.1 (hok.2.trans hsame.data.symm)] at hrun
    exact ⟨t, ps, hrun, hadv, hwrite, hc⟩
  · obtain ⟨r, hr⟩ : ∃ r, writeRegister s.cfg s.link.addr s.link.data k (as.drop (1 + back.calls)) = r := ⟨_, rfl⟩
    rw [writeRegister_of_failed hb hok hr] at hn ⊢
    dsimp only at hn
    obtain ⟨t, ps, hrun, hadv, hsame, hc⟩ := readBack_run hp hf ha hb (by omega)
    have hfailed := hrest t back.status back.value (as.drop (1 + back.calls)) (hsame.isWrite.trans hw)
      (hsame.data.symm ▸ hok) (hsame.writeAttempts.symm ▸ hk) hadv.rxHeld (ha.advanced hadv)
    rw [hadv.cfg, hsame.addr, hsame.data, List.length_drop, hr] at hfailed
    obtain ⟨u, qs, hrun', hadv', hwrite, hc'⟩ := hfailed (Nat.le_sub_of_add_le' hn)
    refine ⟨u, _, hrun.trans hrun', hadv.trans hadv', hwrite, ?_⟩
    have htotal := hc.append hc'
    rwa [← List.length_append] at htotal

theorem failedWriteRuns (k : Nat) : FailedWriteRuns k := by
  induction k with
  | zero =>
    intro u st v as hw hne hk hheld _ _
    rcases finishRead_cases st v u with ⟨hr, _⟩ | ⟨_, hst, hv, _⟩ | ⟨_, _, hlt, _⟩ | ⟨_, _, _, h⟩
    · exact absurd (hw.symm.trans hr) nofun
    · exact absurd ⟨hst, hv⟩ hne
    · omega
    · exact ⟨u, [], h ▸ .done _, .of_flushed hheld u.link, hw, rfl, rfl, rfl, rfl⟩
  | succ k ih =>
    intro u st v as hw hne hk hheld ha hn
    rcases finishRead_cases st v u with ⟨hr, _⟩ | ⟨_, hst, hv, _⟩ | ⟨_, _, _, h⟩ | ⟨_, _, hle, _⟩
    · exact absurd (hw.symm.trans hr) nofun
    · exact absurd ⟨hst, hv⟩ hne
    · rw [h]
      have hk' : u.link.writeAttempts + 1 + (k + 1) = linkAttempts := by omega
      exact writeRegister_runs_of_rest ih (s := beginWriteAttempt
        { u with link := { u.link with writeAttempts := u.link.writeAttempts + 1 } }) rfl rfl hw hk' ha hn
    · omega

/-! The two transactions. -/

/-- The state a transaction leaves on the answers that WIRE gave: what its procedure took and sent, and its response on offer. -/
def transacted (s : State) (opcode : Byte) (r : Returned) : State :=
  offered (advance r.calls r.frames s.link s) opcode (statusCode r.status) r.value

/-- The LINK step of RESPOND after a procedure that returned `st` and `v` (R118, R119). -/
theorem LinkRun.respond {s t u : State} {ps : List LinkPhase} {r : Returned}
    (h : LinkRun s ps (enterRespond r.status r.value t)) (ha : Advanced u r.calls r.frames t) :
    LinkRun s (ps ++ [.respond]) (transacted u (if t.link.isWrite = true then 0x11#8 else 0x10#8) r) := by
  have hoffer : linkStep (enterRespond r.status r.value t) =
      .next (transacted u (if t.link.isWrite = true then 0x11#8 else 0x10#8) r) := by
    obtain ⟨l, rfl⟩ := ha
    rw [linkStep, enterRespond_link, offerResponse_eq_offered]
    rfl
  exact h.trans (.step rfl hoffer (.done _))

/-- The command `i` starts a transaction in `s`, and LINK runs it as its procedure does, which returns `r`. -/
structure Transacts (s : State) (i : Instr) (opcode : Byte) (r : Returned) (t : State) (ps : List LinkPhase) : Prop where
  starts : exec i s = .next t
  cfg : t.cfg = s.cfg
  turns : t.turns = s.turns
  runs : LinkRun t (ps ++ [.respond]) (transacted s opcode r)
  counts : PhaseCounts ps r.frames.length r.calls r.delays

theorem readRegister_delays (c : Config) (addr : BitVec 7) (k : Nat) (err : Status) (as : List (List Byte)) :
    (readRegister c addr k err as).delays = 0 := by
  induction k generalizing err as with
  | zero => rfl
  | succ k ih =>
    rcases hr : readAttempt as with ⟨e | v, n⟩
    · rw [readRegister_of_error hr]
      exact ih e (as.drop n)
    · rw [readRegister_of_ok hr]

theorem rdreg_transacts {s : State} {addr : BitVec 7} {as : List (List Byte)} (ha : Answers as s)
    (hn : (readRegister s.cfg addr 2 .timeout as).calls ≤ as.length) :
    ∃ t ps, Transacts s (.rdreg addr) 0x10#8 (readRegister s.cfg addr 2 .timeout as) t ps := by
  obtain ⟨t, ps, hrun, hadv, hsame, hc⟩ :=
    readRegister_runs (s := beginRead { s with link := { LinkState.idle with addr := addr } }) rfl rfl rfl ha hn
  have hread : t.link.isWrite = false := hsame.isWrite
  rcases finishRead_cases _ _ t with ⟨_, h⟩ | ⟨hw, _⟩ | ⟨hw, _⟩ | ⟨hw, _⟩
  · rw [h] at hrun
    have hruns := hrun.respond hadv
    rw [hread] at hruns
    exact ⟨_, ps, rfl, rfl, rfl, hruns, by rw [readRegister_delays]; exact hc⟩
  · exact absurd (hw.symm.trans hread) nofun
  · exact absurd (hw.symm.trans hread) nofun
  · exact absurd (hw.symm.trans hread) nofun

theorem wrreg_transacts {s : State} {addr : BitVec 7} {v : Word} {as : List (List Byte)} (ha : Answers as s)
    (hn : (writeRegister s.cfg addr v 2 as).calls ≤ as.length) :
    ∃ t ps, Transacts s (.wrreg addr v) 0x11#8 (writeRegister s.cfg addr v 2 as) t ps := by
  obtain ⟨t, ps, hrun, hadv, hw, hc⟩ := writeRegister_runs_of_rest (failedWriteRuns 1) (s := beginWriteAttempt
    { s with link := { LinkState.idle with isWrite := true, addr := addr, data := v } }) rfl rfl rfl rfl ha hn
  have hruns := hrun.respond hadv
  rw [hw] at hruns
  exact ⟨_, ps, rfl, rfl, rfl, hruns, hc⟩

section
variable {s t : State} {i : Instr} {op : Byte} {r : Returned} {ps : List LinkPhase} (h : Transacts s i op r t ps)
include h

/-- The LINK steps of a transaction are those of its procedure's frames, calls and delays, and that of RESPOND (R123). -/
theorem Transacts.length_phases : (ps ++ [LinkPhase.respond]).length = r.steps := by
  rw [List.length_append, h.counts.length]
  rfl

theorem Transacts.run (hw : s.cfg.wf = true) :
    Host.Core.run core r.steps (scheduled t (List.replicate r.steps .link)) = .next (scheduled (transacted s op r) []) := by
  have hrun := h.runs.run (h.cfg ▸ hw)
  rwa [h.length_phases] at hrun

theorem Transacts.linkPhases (hw : s.cfg.wf = true) : linkPhases r.steps t = ps ++ [.respond] := by
  have hphases := h.runs.linkPhases (h.cfg ▸ hw)
  rwa [h.length_phases] at hphases

end

/-- With the port free and the answers listed, presenting the word of `i` and letting LINK run is the whole transaction. -/
theorem Transacts.run_from_host {s t : State} {i : Instr} {op : Byte} {r : Returned} {ps : List LinkPhase} {w : Word64}
    {ws : List Word64} (hw : s.cfg.wf = true) (hl : s.link = LinkState.idle) (hr : s.rsp = none) (hq : s.cmdQueue = w :: ws)
    (hi : decodeCommand s.cfg w = .ok i) (hn : r.calls ≤ s.wire.length)
    (h : Transacts { s with turns := List.replicate r.steps .link, cmdQueue := ws } i op r t ps) :
    Host.Core.run core (1 + r.steps) (scheduled s (.host :: List.replicate r.steps .link)) =
      .next (afterTransaction s ws op r) := by
  have hstep := (stepRunsDecodedCommand s (List.replicate r.steps .link) w ws i hw hr (hl ▸ rfl) hq hi).trans h.starts
  have hsched : scheduled t (List.replicate r.steps .link) = t := by
    rw [← show t.turns = List.replicate r.steps .link from h.turns]
    rfl
  have hlisted : s.wireCalls + (r.calls - s.wire.length) = s.wireCalls := by omega
  have hfinal : scheduled (transacted { s with turns := List.replicate r.steps .link, cmdQueue := ws } op r) [] =
      afterTransaction s ws op r := by
    simp only [scheduled, transacted, offered, advance, afterTransaction, hlisted]
  have hrun := h.run hw
  rw [hsched, hfinal] at hrun
  rw [Nat.add_comm, run_succ_of_step hstep, hrun]

theorem byte_addr_fields : ∀ addr : BitVec 7,
    (BitVec.ofNat 8 addr.toNat).toNat ≤ 0x7F ∧ (BitVec.ofNat 8 addr.toNat).setWidth 7 = addr := by decide

theorem decodeCommand_rdreg_addr (c : Config) (addr : BitVec 7) :
    decodeCommand c (portWord 0x10#8 (BitVec.ofNat 8 addr.toNat) 0 0) = .ok (.rdreg addr) := by
  obtain ⟨hle, haddr⟩ := byte_addr_fields addr
  rw [decodeCommand_rdreg, if_pos ⟨rfl, rfl⟩, if_pos hle, haddr]

theorem decodeCommand_wrreg_addr (c : Config) (addr : BitVec 7) (v : Word) :
    decodeCommand c (portWord 0x11#8 (BitVec.ofNat 8 addr.toNat) 0 v) = .ok (.wrreg addr v) := by
  obtain ⟨hle, haddr⟩ := byte_addr_fields addr
  have hrpm : (0 : U16) = 0#16 := rfl
  rw [decodeCommand_wrreg, if_pos hrpm, if_pos hle, haddr]

/-- Settles O18: the listed answers are what WIRE gives. -/
theorem readTransactionFollowsProcedure : Obligations.ReadTransactionFollowsProcedure := by
  intro s addr ws hw hl hr hq hn
  obtain ⟨t, ps, h⟩ := rdreg_transacts (s := { s with
    turns := List.replicate (readRegister s.cfg addr 2 .timeout s.wire).steps .link, cmdQueue := ws }) (answers_wire _) hn
  exact h.run_from_host hw hl hr hq (decodeCommand_rdreg_addr s.cfg addr) hn

/-- Settles O19: the listed answers are what WIRE gives. -/
theorem writeTransactionFollowsProcedure : Obligations.WriteTransactionFollowsProcedure := by
  intro s addr v ws hw hl hr hq hn
  obtain ⟨t, ps, h⟩ := wrreg_transacts (s := { s with
    turns := List.replicate (writeRegister s.cfg addr v 2 s.wire).steps .link, cmdQueue := ws }) (answers_wire _) hn
  exact h.run_from_host hw hl hr hq (decodeCommand_wrreg_addr s.cfg addr v) hn

end Sys2Proof.Machine
end

section
/-! The bounds of a transaction: what the two procedures can send, receive and return, and so what LINK does in as many steps
(R116, R117, R120, R201). -/

namespace Sys2Proof.Machine

open Sys2Proof.Statements

/-! The read procedure. -/

theorem readAttempt_calls_le (as : List (List Byte)) : (readAttempt as).2 ≤ 2 := by
  rw [readAttempt_eq]
  split
  · exact Nat.le_succ 1
  · exact le_rfl

/-- An attempt fails with one of three errors (R116, R201). -/
theorem readAttempt_error {as : List (List Byte)} {e : Status} {n : Nat} (h : readAttempt as = (.error e, n)) :
    e = .timeout ∨ e = .shortRead ∨ e = .crc := by
  rw [readAttempt_eq] at h
  unfold readReply at h
  simp only [tooShort_eq_shortError] at h
  split_ifs at h <;> cases h
  · exact (shortError_cases _).imp_right .inl
  · exact (shortError_cases _).imp_right .inl
  · exact .inr (.inr rfl)

/-- What `read_register` with `k` attempts can send, receive and return (R116, R120). -/
structure ReadBounds (c : Config) (addr : BitVec 7) (k : Nat) (r : Returned) : Prop where
  frames : ∀ f ∈ r.frames, f = readFrame c addr
  sent : r.frames.length ≤ k
  calls : r.calls ≤ 2 * k
  result : ReadResult r.status r.value

theorem readRegister_bounds (c : Config) (addr : BitVec 7) (k : Nat) {err : Status} (as : List (List Byte))
    (herr : err = .timeout ∨ err = .shortRead ∨ err = .crc) : ReadBounds c addr k (readRegister c addr k err as) := by
  induction k generalizing err as with
  | zero => exact ⟨nofun, le_rfl, le_rfl, .inr ⟨herr, rfl⟩⟩
  | succ k ih =>
    have hcalls := readAttempt_calls_le as
    obtain ⟨res, n, hr⟩ : ∃ res n, readAttempt as = (res, n) := ⟨_, _, rfl⟩
    rw [hr] at hcalls
    dsimp only at hcalls
    cases res with
    | ok v =>
      rw [readRegister_of_ok hr]
      exact ⟨fun f hf => List.mem_singleton.mp hf, Nat.le_add_left 1 k, hcalls.trans (by omega), .inl rfl⟩
    | error e =>
      rw [readRegister_of_error hr]
      obtain ⟨hframes, hsent, hrest, hresult⟩ := ih (as.drop n) (readAttempt_error hr)
      refine ⟨List.forall_mem_cons.mpr ⟨rfl, hframes⟩, Nat.succ_le_succ hsent, ?_, hresult⟩
      dsimp only
      omega

/-- With an attempt left a request is sent (R116). -/
theorem readRegister_sends (c : Config) (addr : BitVec 7) (k : Nat) (err : Status) (as : List (List Byte)) :
    1 ≤ (readRegister c addr (k + 1) err as).frames.length := by
  rcases hr : readAttempt as with ⟨e | v, n⟩
  · rw [readRegister_of_error hr]
    exact Nat.le_add_left 1 _
  · rw [readRegister_of_ok hr]
    exact le_rfl

/-! The write procedure. -/

/-- The two requests differ in their lengths (R113, R114). -/
theorem readFrame_ne_writeFrame (c : Config) (addr : BitVec 7) (v : Word) : readFrame c addr ≠ writeFrame c addr v :=
  fun h => absurd (congrArg List.length h) (show ¬ (4 = 8) by decide)

/-- What `write_register` with `k` attempts can send, receive and return (R117, R120). -/
structure WriteBounds (c : Config) (addr : BitVec 7) (v : Word) (k : Nat) (r : Returned) : Prop where
  frames : ∀ f ∈ r.frames, f = readFrame c addr ∨ f = writeFrame c addr v
  writes : r.frames.count (writeFrame c addr v) ≤ k
  reads : r.frames.count (readFrame c addr) ≤ 2 * k
  sent : r.frames.length ≤ 3 * k
  calls : r.calls ≤ 5 * k
  delays : r.delays ≤ k
  status : r.status = .ok ∨ r.status = .verifyFailed
  value : r.value = 0#32

/-- The frames of a write attempt: one write request, and the read requests of its read-back. -/
theorem WriteBounds.attempt {c : Config} {addr : BitVec 7} {v : Word} {k : Nat} {back r : Returned}
    (hb : ReadBounds c addr 2 back) (hr : WriteBounds c addr v k r) :
    WriteBounds c addr v (k + 1)
      { r with
        frames := writeFrame c addr v :: back.frames ++ r.frames
        calls := 1 + back.calls + r.calls
        delays := 1 + r.delays } := by
  have hne := readFrame_ne_writeFrame c addr v
  have hwrites : back.frames.count (writeFrame c addr v) = 0 :=
    List.count_eq_zero.mpr fun hmem => hne (hb.frames _ hmem).symm
  have hreads := List.count_le_length (l := back.frames) (a := readFrame c addr)
  obtain ⟨hframes, hsent, hcalls, _⟩ := hb
  obtain ⟨hframes', hwrites', hreads', hsent', hcalls', hdelays', hstatus, hvalue⟩ := hr
  refine ⟨fun f hf => ?_, ?_, ?_, ?_, ?_, ?_, hstatus, hvalue⟩
  · rw [List.cons_append, List.mem_cons, List.mem_append] at hf
    rcases hf with rfl | hf | hf
    · exact .inr rfl
    · exact .inl (hframes f hf)
    · exact hframes' f hf
  · rw [List.count_append, List.count_cons_self, hwrites]
    omega
  · rw [List.count_append, List.count_cons_of_ne hne.symm]
    omega
  · rw [List.length_append, List.length_cons]
    omega
  · dsimp only
    omega
  · dsimp only
    omega

theorem writeRegister_bounds (c : Config) (addr : BitVec 7) (v : Word) (k : Nat) (as : List (List Byte)) :
    WriteBounds c addr v k (writeRegister c addr v k as) := by
  induction k generalizing as with
  | zero => exact ⟨nofun, le_rfl, le_rfl, le_rfl, le_rfl, le_rfl, .inr rfl, rfl⟩
  | succ k ih =>
    obtain ⟨back, hb⟩ : ∃ back, readRegister c addr 2 .timeout (as.drop 1) = back := ⟨_, rfl⟩
    have hback : ReadBounds c addr 2 back := hb ▸ readRegister_bounds c addr 2 (as.drop 1) (.inl rfl)
    by_cases hok : back.status = .ok ∧ back.value = v
    · have hlast : WriteBounds c addr v k { status := .ok, value := 0, frames := [], calls := 0, delays := 0 } :=
        ⟨nofun, Nat.zero_le _, Nat.zero_le _, Nat.zero_le _, Nat.zero_le _, Nat.zero_le _, .inl rfl, rfl⟩
      have hattempt := hlast.attempt hback
      rw [writeRegister_of_ok hb hok]
      rwa [List.append_nil] at hattempt
    · rw [writeRegister_of_failed hb hok rfl]
      exact (ih (as.drop (1 + back.calls))).attempt hback

/-- With an attempt left a write request is sent first (R117). -/
theorem writeRegister_sends (c : Config) (addr : BitVec 7) (v : Word) (k : Nat) (as : List (List Byte)) :
    1 ≤ (writeRegister c addr v (k + 1) as).frames.count (writeFrame c addr v) := by
  refine List.one_le_count_iff.mpr ?_
  rw [writeRegister]
  split <;> exact List.mem_cons_self

/-! The accepted command. -/

/-- The step that accepts a command runs it (R80). -/
theorem step_of_accepts {s : State} {i : Instr} (h : Accepts s i) (hw : s.cfg.wf = true) :
    ∃ ws us, step s = exec i { s with turns := us, cmdQueue := ws } := by
  obtain ⟨w, ws, us, hturns, hr, hp, hq, hi⟩ := h
  have hstep := stepRunsDecodedCommand s us w ws i hw hr hp hq hi
  rw [← hturns] at hstep
  exact ⟨ws, us, hstep⟩

section
variable {s t : State} {i : Instr} {op : Byte} {r : Returned} {ps : List LinkPhase} (h : Transacts s i op r t ps)
  (hw : s.cfg.wf = true)
include h hw

/-- The phases of a transaction's LINK steps: its calls and delays, and RESPOND once and last (R123). -/
theorem Transacts.phases :
    (Statements.linkPhases r.steps t).countP receives = r.calls ∧
      (Statements.linkPhases r.steps t).count .wDelay = r.delays ∧
      (Statements.linkPhases r.steps t).count .respond = 1 ∧
      (Statements.linkPhases r.steps t).getLast? = some .respond := by
  rw [h.linkPhases hw, List.countP_append, List.count_append, List.count_append, h.counts.calls, h.counts.delays,
    h.counts.responds]
  exact ⟨rfl, rfl, rfl, List.getLast?_concat⟩

end

/-- Settles O21: whatever WIRE answers, the transaction is its procedure on those answers. -/
theorem transactionsAreBounded : Obligations.TransactionsAreBounded := by
  refine ⟨fun s addr hinv hacc => ?_, fun s addr value hinv hacc => ?_⟩ <;>
    obtain ⟨ws, us, hstep⟩ := step_of_accepts hacc hinv.cfg_wf
  · obtain ⟨as, hlen, hans⟩ := exists_answers 4 { s with turns := us, cmdQueue := ws }
    have hb := readRegister_bounds s.cfg addr 2 as (.inl rfl)
    have hsends := readRegister_sends s.cfg addr 1 .timeout as
    have hdelays := readRegister_delays s.cfg addr 2 .timeout as
    obtain ⟨t, ps, h⟩ := rdreg_transacts hans (hb.calls.trans hlen.ge)
    dsimp only at h
    generalize readRegister s.cfg addr 2 .timeout as = r at hb hsends hdelays h
    obtain ⟨hframes, hsent, hcalls, hresult⟩ := hb
    obtain ⟨hphaseCalls, hphaseDelays, hresponds, hlast⟩ := h.phases hinv.cfg_wf
    refine ⟨t, _, r.steps, r.frames, r.status, r.value, hstep.trans h.starts, ?_, h.run hinv.cfg_wf, rfl, rfl, ?_, ?_, rfl,
      hsends, hsent, hframes, hphaseCalls ▸ hcalls, hphaseDelays.trans hdelays, hresponds, hlast⟩
    · rw [Returned.steps]
      omega
    · exact hresult.imp_right And.left
    · exact fun hne => (hresult.resolve_left hne).2
  · obtain ⟨as, hlen, hans⟩ := exists_answers 10 { s with turns := us, cmdQueue := ws }
    have hb := writeRegister_bounds s.cfg addr value 2 as
    have hsends := writeRegister_sends s.cfg addr value 1 as
    obtain ⟨t, ps, h⟩ := wrreg_transacts hans (hb.calls.trans hlen.ge)
    dsimp only at h
    generalize writeRegister s.cfg addr value 2 as = r at hb hsends h
    obtain ⟨hframes, hwrites, hreads, hsent, hcalls, hdelays, hstatus, hvalue⟩ := hb
    obtain ⟨hphaseCalls, hphaseDelays, hresponds, hlast⟩ := h.phases hinv.cfg_wf
    refine ⟨t, _, r.steps, r.frames, r.status, hstep.trans h.starts, ?_, h.run hinv.cfg_wf, rfl, ?_, hstatus, rfl, hframes,
      hsends, hwrites, hreads, hphaseCalls ▸ hcalls, hphaseDelays ▸ hdelays, hresponds, hlast⟩
    · rw [Returned.steps]
      omega
    · rw [← hvalue]
      rfl

end Sys2Proof.Machine
end

section
/-! The Pulse Generator (R140, R145): a scheduled PULSE event, and as many of them as steps remain. -/

namespace Sys2Proof.Machine

open Sys2Proof.Statements

/-! One PULSE event. -/

theorem pulse_of_arrived {s : State} (harr : s.motion.position = s.motion.target) : pulse s = s := by
  rcases pulse_cases s with ⟨_, e⟩ | ⟨hne, _⟩
  · exact e
  · exact absurd harr hne

theorem pulse_of_ne {s : State} (hne : s.motion.position ≠ s.motion.target) :
    pulse s = { s with
      motion := { s.motion with position := stepPosition s.motion.direction s.motion.position }
      timers := { s.timers with stepHighCnt := s.cfg.stepHighUs }
      pulseLog := s.pulseLog ++ [dirPin s] } := by
  rcases pulse_cases s with ⟨harr, _⟩ | ⟨_, e⟩
  · exact absurd harr hne
  · exact e

/-- PULSE does not look at the schedule. -/
theorem pulse_scheduled (s : State) (us : List Turn) : pulse (scheduled s us) = scheduled (pulse s) us := by
  by_cases harr : s.motion.position = s.motion.target
  · rw [pulse_of_arrived harr, pulse_of_arrived (s := scheduled s us) harr]
  · rw [pulse_of_ne harr, pulse_of_ne (s := scheduled s us) harr]
    rfl

theorem step_scheduled_pulse {s : State} (hw : s.cfg.wf = true) (us : List Turn) :
    step (scheduled s (.pulse :: us)) = .next (scheduled (pulse s) us) := by
  rw [step_scheduled hw, performTurn, pulse_scheduled]

/-- The alarm puts PULSE at the head of the schedule (R206, R211). -/
theorem microsecond_head_of_alarm {s : State} (h : s.timers.periodAct.toNat ≤ s.timers.tcnt.toNat + 1) :
    (microsecond s).turns.head? = some .pulse := by
  rw [microsecond_turns, raised_eq, if_pos h]
  rfl

/-- Settles O41: by the two cases of PULSE; off the ends of the `i32` range the step does not wrap. -/
theorem pulseStepsOrRests : Obligations.PulseStepsOrRests := by
  refine ⟨fun s h => microsecond_head_of_alarm h, fun s us hw => ?_⟩
  rw [step_scheduled_pulse hw]
  have hrange := toInt_range s.motion.position
  split_ifs with harr
  · rw [pulse_of_arrived harr]
  · refine ⟨stepPosition s.motion.direction s.motion.position, by rw [pulse_of_ne harr]; rfl,
      fun hd hlt => ?_, fun hd hlt => ?_⟩ <;> rw [hd]
    · exact stepPosition_toInt (d := .forward) (by rw [directionSign]; omega)
    · exact stepPosition_toInt (d := .reverse) (by rw [directionSign]; omega)

/-! A run of PULSE events. -/

/-- `n` PULSE events where `n` steps remain, by induction on `n`: each takes one off and keeps the invariants and the tag. -/
theorem run_pulses_of_remaining {s : State} {n : Nat} (hw : s.cfg.wf = true) (hm : MotionInv s) (hn : remaining s = n) :
    ∃ h, Host.Core.run core n (scheduled s (List.replicate n .pulse)) =
      .next { s with
        turns := []
        motion := { s.motion with position := s.motion.target }
        timers := { s.timers with stepHighCnt := h }
        pulseLog := s.pulseLog ++ List.replicate n (dirPin s) } := by
  induction n generalizing s with
  | zero =>
    refine ⟨s.timers.stepHighCnt, ?_⟩
    rw [← (remaining_eq_zero_iff s).mp hn, List.replicate_zero, List.replicate_zero, List.append_nil]
    rfl
  | succ n ih =>
    have hne : s.motion.position ≠ s.motion.target := fun harr => by
      rw [(remaining_eq_zero_iff s).mpr harr] at hn
      cases hn
    have hone : remaining (pulse s) = n := by
      have hoff := (pulseTakesOneOffRemaining s hm hne).1
      omega
    obtain ⟨h, hrun⟩ := ih ((pulse_motionOnly s).cfg ▸ hw) hm.pulse hone
    have htag : dirPin (pulse s) = dirPin s := by
      rw [pulse_of_ne hne]
      rfl
    refine ⟨h, ?_⟩
    rw [List.replicate_succ, run_succ_of_step (step_scheduled_pulse hw _), hrun, htag, pulse_of_ne hne,
      List.replicate_succ, List.append_assoc]
    rfl

/-- Settles O43. -/
theorem pulsesReachTarget : Obligations.PulsesReachTarget := fun _ h => run_pulses_of_remaining h.cfg_wf h.motion rfl

end Sys2Proof.Machine
end

section
/-! Speed to period and the ramp (R150 to R156): both are monotone, and the ramp runs from the floor speed to the peak (R152,
R161). -/

namespace Sys2Proof.Machine

/-! Speed to period. -/

theorem one_le_sps (c : Config) (rpm : Nat) : 1 ≤ sps c rpm := Nat.le_max_left _ _

theorem sps_mono (c : Config) : Monotone (sps c) := fun _ _ h =>
  max_le_max le_rfl (Nat.div_le_div_right (Nat.mul_le_mul_right _ h))

/-- A higher speed has no longer period (R152). -/
theorem periodOf_antitone (c : Config) : Antitone (periodOf c) := fun a _ h =>
  min_le_min le_rfl (Nat.div_le_div_left (sps_mono c h) (one_le_sps c a))

/-- Settles O45. -/
theorem periodBoundsAndOrder : Obligations.PeriodBoundsAndOrder :=
  ⟨fun c _ _ h => periodOf_antitone c h,
    fun c rpm hw hr => ⟨one_le_sps c rpm, sps_le hw hr, ten_le_periodOf hw hr, Nat.min_le_left _ _⟩⟩

/-! The sigmoid and the ramp of a well-formed configuration. -/

section
variable {c : Config} (hw : c.wf = true)
include hw

theorem sigmoid_ends : sigmoid c 0 = 0 ∧ sigmoid c 63 = 32768 := by
  simp only [Config.wf, Config.wfSig, Bool.and_eq_true, decide_eq_true_eq] at hw
  obtain ⟨⟨_, ⟨⟨_, hfirst, hlast⟩, _⟩, _⟩, _⟩ := hw
  exact ⟨hfirst, hlast⟩

theorem sigmoid_le_succ {k : Nat} (hk : k < 63) : sigmoid c k ≤ sigmoid c (k + 1) := by
  simp only [Config.wf, Config.wfSig, Bool.and_eq_true, decide_eq_true_eq, List.all_eq_true, List.mem_range] at hw
  obtain ⟨⟨_, ⟨_, hmono⟩, _⟩, _⟩ := hw
  exact hmono k hk

/-- The sigmoid rises up to its last entry (R10(e)). -/
theorem sigmoid_mono {k l : Nat} (hkl : k ≤ l) (hl : l ≤ 63) : sigmoid c k ≤ sigmoid c l := by
  induction l, hkl using Nat.le_induction with
  | base => exact le_rfl
  | succ l _ ih => exact (ih (by omega)).trans (sigmoid_le_succ hw (by omega))

theorem rampRpm_zero (peak n : Nat) : rampRpm c peak n 0 = c.rpmFloor := by
  rw [rampRpm, Nat.mul_zero, Nat.zero_div, (sigmoid_ends hw).1, Nat.mul_zero, Nat.zero_div, Nat.add_zero]

theorem rampRpm_last {peak n : Nat} (hp : c.rpmFloor ≤ peak) (hn : 2 ≤ n) : rampRpm c peak n (n - 1) = peak := by
  rw [rampRpm, Nat.mul_div_cancel _ (by omega), (sigmoid_ends hw).2, Nat.mul_div_cancel _ (by omega)]
  omega

/-- The speeds of a ramp rise with the level: its levels are spread over the sigmoid in order (R161). -/
theorem rampRpm_mono (peak : Nat) {n i j : Nat} (hij : i ≤ j) (hj : j < n) : rampRpm c peak n i ≤ rampRpm c peak n j := by
  have hentry : 63 * i / (n - 1) ≤ 63 * j / (n - 1) := Nat.div_le_div_right (by omega)
  have hlast : 63 * j / (n - 1) ≤ 63 := Nat.div_le_of_le_mul (by omega)
  exact Nat.add_le_add_left (Nat.div_le_div_right (Nat.mul_le_mul_left _ (sigmoid_mono hw hentry hlast))) _

end

/-- Settles O46: the speeds by the sigmoid, the periods in the table by what `plan` writes. -/
theorem rampIsMonotone : Obligations.RampIsMonotone := by
  intro c rpm hw hdirect _ n
  have hfloor : c.rpmFloor ≤ rpm := (speeds_of_wf hw).2.1.trans hdirect
  have hn : 2 ≤ n := (rampStepsOf_range hw rpm).1
  have hfirst := rampRpm_zero hw rpm n
  have hlast := rampRpm_last hw hfloor hn
  have hperiods {i j : Nat} (hij : i ≤ j) (hj : j < n) := periodOf_antitone c (rampRpm_mono hw rpm hij hj)
  refine ⟨hfirst, hlast, fun i j hij hj => ⟨rampRpm_mono hw rpm hij hj, hperiods hij hj⟩, ?_⟩
  rintro s d rfl ht p
  have hread {i : Nat} (hi : i < n) : (p.rampTable.read i).toNat = periodOf s.cfg (rampRpm s.cfg rpm n i) := by
    rw [plan_read ht hdirect hi, periodWord_toNat]
  refine ⟨(plan_rampSteps_toNat hw d rpm).trans (if_neg (by omega)), ?_, ?_, fun i j hij hj => ?_⟩
  · rw [hread (by omega), hfirst]
  · rw [hread (by omega), hlast]
  · rw [hread hj, hread (hij.trans_lt hj)]
    exact hperiods hij hj

end Sys2Proof.Machine
end

section
/-! The TICK event (R157 to R160): its phase, what it leaves in each phase, and a run of TICK events after arrival (R163). -/

namespace Sys2Proof.Machine

open Sys2Proof.Statements

/-! The phase names. -/

theorem direct_iff (s : State) : direct s = true ↔ s.profile.rampSteps.toNat = 1 := by
  rw [← not_iff_not, Bool.not_eq_true]
  exact not_direct_iff s

/-- The condition under which R160 gives a state the phase name `p`. -/
def PhaseCondition (s : State) : MovePhase → Prop
  | .idle => s.motion.active = false
  | .direct => s.motion.active = true ∧ direct s = true
  | .rampUp => s.motion.active = true ∧ direct s = false ∧ brakeDistance s < remaining s ∧
      s.profile.rampIndex.toNat + 1 < s.profile.rampSteps.toNat
  | .cruise => s.motion.active = true ∧ direct s = false ∧ brakeDistance s < remaining s ∧
      s.profile.rampSteps.toNat ≤ s.profile.rampIndex.toNat + 1
  | .brake => s.motion.active = true ∧ direct s = false ∧ remaining s ≤ brakeDistance s ∧ 0 < s.profile.rampIndex.toNat
  | .floorHold => s.motion.active = true ∧ direct s = false ∧ remaining s ≤ brakeDistance s ∧
      s.profile.rampIndex.toNat = 0 ∧ 0 < remaining s
  | .stopping => s.motion.active = true ∧ direct s = false ∧ remaining s = 0 ∧ s.profile.rampIndex.toNat = 0

/-- Every state meets the condition of its phase name. -/
theorem phaseCondition_movePhase (s : State) : PhaseCondition s (movePhase s) := by
  unfold movePhase
  split_ifs with hact hdir hfar hup hidx hrem
  · exact hact
  all_goals rw [Bool.not_eq_false] at hact
  · exact ⟨hact, hdir⟩
  all_goals rw [Bool.not_eq_true] at hdir
  · exact ⟨hact, hdir, hfar, hup⟩
  · exact ⟨hact, hdir, hfar, not_lt.mp hup⟩
  · exact ⟨hact, hdir, not_lt.mp hfar, hidx⟩
  · exact ⟨hact, hdir, not_lt.mp hfar, Nat.eq_zero_of_not_pos hidx, hrem⟩
  · exact ⟨hact, hdir, Nat.eq_zero_of_not_pos hrem, Nat.eq_zero_of_not_pos hidx⟩

/-- A state that meets the condition of a phase name has that name. -/
theorem movePhase_of_phaseCondition {s : State} {p : MovePhase} (h : PhaseCondition s p) : movePhase s = p := by
  cases p with
  | idle => exact if_pos h
  | direct =>
    obtain ⟨hact, hdir⟩ := h
    simp [movePhase, hact, hdir]
  | rampUp =>
    obtain ⟨hact, hdir, hfar, hup⟩ := h
    simp [movePhase, hact, hdir, hfar, hup]
  | cruise =>
    obtain ⟨hact, hdir, hfar, htop⟩ := h
    simp [movePhase, hact, hdir, hfar, htop.not_gt]
  | brake =>
    obtain ⟨hact, hdir, hnear, hidx⟩ := h
    simp [movePhase, hact, hdir, hnear.not_gt, hidx]
  | floorHold =>
    obtain ⟨hact, hdir, hnear, hidx, hrem⟩ := h
    simp [movePhase, hact, hdir, hnear.not_gt, hidx, hrem]
  | stopping =>
    obtain ⟨hact, hdir, hrem, hidx⟩ := h
    simp [movePhase, hact, hdir, hrem, hidx]

theorem movePhase_eq_iff (s : State) (p : MovePhase) : movePhase s = p ↔ PhaseCondition s p :=
  ⟨fun h => h ▸ phaseCondition_movePhase s, movePhase_of_phaseCondition⟩

/-- Settles O48: by the condition of each name, where a move that has levels and is not direct has two. -/
theorem phaseNamesCoverMoves : Obligations.PhaseNamesCoverMoves := by
  intro s hsteps rem brake index steps ramped
  have hdirect (hact : s.motion.active = true) : direct s = false ↔ 2 ≤ steps := by
    have hone := hsteps hact
    rw [not_direct_iff]
    omega
  have hramped (q : Prop) : s.motion.active = true ∧ direct s = false ∧ q ↔ ramped ∧ q := by
    rw [← and_assoc, and_congr_right hdirect]
  exact ⟨movePhase_eq_iff s .idle, (movePhase_eq_iff s .direct).trans (and_congr_right' (direct_iff s)),
    (movePhase_eq_iff s .rampUp).trans (hramped _), (movePhase_eq_iff s .cruise).trans (hramped _),
    (movePhase_eq_iff s .brake).trans (hramped _), (movePhase_eq_iff s .floorHold).trans (hramped _),
    (movePhase_eq_iff s .stopping).trans (hramped _)⟩

/-! One TICK event. -/

/-- The state that TICK leaves in each phase, where the invariants hold (R158, R159). -/
def ticked (s : State) : State :=
  match movePhase s with
  | .idle => s
  | .direct => if remaining s = 0 then completed s else s
  | .rampUp => atLevel s (s.profile.rampIndex + 1)
  | .cruise => withPeriod s (periodWord s.cfg s.motion.speedRpm.toNat)
  | .brake => atLevel s (s.profile.rampIndex - 1)
  | .floorHold => withPeriod s (s.profile.rampTable.read 0)
  | .stopping => completed s

/-- The branch of TICK that each phase names (R160). -/
def phaseTick (s : State) : MovePhase → Outcome
  | .idle => .next s
  | .direct => tickDirect s
  | .rampUp => selectLevel (s.profile.rampIndex.toNat + 1) s
  | .cruise => .next (holdPeak s)
  | .brake => selectLevel (s.profile.rampIndex.toNat - 1) s
  | .floorHold => selectLevel 0 s
  | .stopping => .next (complete s)

theorem tick_eq_phaseTick (s : State) : tick s = phaseTick s (movePhase s) := by
  simp only [tick, tickRamped, movePhase, apply_ite (phaseTick s), Nat.pos_iff_ne_zero, ite_not]
  rfl

/-- A level that `plan` wrote exists, so selecting it goes on (R31(c), R158). -/
theorem MotionInv.selectLevel_eq {s : State} (h : MotionInv s) (hact : s.motion.active = true) {i : U16}
    (hi : i.toNat < s.profile.rampSteps.toNat) : Machine.selectLevel i.toNat s = .next (atLevel s i) := by
  have hrange := h.steps_range hact
  rcases selectLevel_cases i.toNat s with ⟨_, e⟩ | ⟨hge, _⟩
  · rw [e, BitVec.ofNat_toNat, BitVec.setWidth_eq]
    rfl
  · omega

theorem atLevel_of_index_zero {s : State} (h : s.profile.rampIndex.toNat = 0) :
    atLevel s 0 = withPeriod s (s.profile.rampTable.read 0) := by
  have hidx : 0 = s.profile.rampIndex := BitVec.eq_of_toNat_eq h.symm
  rw [atLevel, hidx, h]
  rfl

theorem MotionInv.tick_eq {s : State} (h : MotionInv s) : Machine.tick s = .next (ticked s) := by
  have hcond := phaseCondition_movePhase s
  have hidx := h.index_range
  rw [tick_eq_phaseTick, ticked]
  cases hp : movePhase s <;> rw [hp] at hcond
  case idle => rfl
  case direct => exact (apply_ite _ _ _ _).symm
  case rampUp =>
    obtain ⟨hact, _, _, hup⟩ := hcond
    have hnext : (s.profile.rampIndex + 1).toNat = s.profile.rampIndex.toNat + 1 := by
      have := s.profile.rampSteps.isLt
      bv_omega
    rw [phaseTick, ← hnext]
    exact h.selectLevel_eq hact (by omega)
  case cruise => rfl
  case brake =>
    obtain ⟨hact, _, _, hpos⟩ := hcond
    have hrange := h.steps_range hact
    have hprev : (s.profile.rampIndex - 1).toNat = s.profile.rampIndex.toNat - 1 := by bv_omega
    rw [phaseTick, ← hprev]
    exact h.selectLevel_eq hact (by omega)
  case floorHold =>
    obtain ⟨hact, _, _, hzero, _⟩ := hcond
    rw [← atLevel_of_index_zero hzero]
    exact h.selectLevel_eq hact (i := 0) (h.steps_range hact).1
  case stopping => rfl

theorem ticked_scheduled (s : State) (us : List Turn) : ticked (scheduled s us) = scheduled (ticked s) us := by
  have hphase : movePhase (scheduled s us) = movePhase s := rfl
  rw [ticked, ticked, hphase]
  cases movePhase s
  case direct => exact (apply_ite (scheduled · us) (remaining s = 0) (completed s) s).symm
  all_goals rfl

theorem Inv.step_scheduled_tick {s : State} (h : Inv s) (us : List Turn) :
    Machine.step (scheduled s (.tick :: us)) = .next (scheduled (ticked s) us) := by
  have hus : Inv (scheduled s us) := h.withAgents s.cmdQueue us
  rw [step_scheduled h.cfg_wf, ← ticked_scheduled]
  exact hus.motion.tick_eq

/-- Settles O47. -/
theorem tickFollowsItsPhase : Obligations.TickFollowsItsPhase := by
  refine ⟨fun s hdue => ?_, fun s us h => ?_⟩
  · rw [microsecond_turns, raised_eq, if_pos hdue]
    simp
  · rw [h.step_scheduled_tick, ← ticked_scheduled, ticked]
    cases hp : movePhase s <;> rw [show movePhase (scheduled s us) = _ from hp] <;> rfl

/-- Settles O50: the phase is that of the floor, and level 0 holds the period of the floor speed. -/
theorem shortMoveStaysAtFloor : Obligations.ShortMoveStaysAtFloor := by
  intro s us h hact hsteps hidx hnear hrem
  have hphase : movePhase s = .floorHold :=
    movePhase_of_phaseCondition ⟨hact, (not_direct_iff s).mpr hsteps, hnear, hidx, Nat.pos_of_ne_zero hrem⟩
  obtain ⟨_, hlevels⟩ := h.motion.ramp_planned hact hsteps
  refine ⟨_, h.step_scheduled_tick us, ?_⟩
  rw [ticked, hphase]
  refine ⟨rfl, rfl, ?_⟩
  show (s.profile.rampTable.read 0).toNat = _
  rw [hlevels 0 (h.motion.steps_range hact).1, periodWord_toNat, rampRpm_zero h.cfg_wf]

/-! A run of TICK events after arrival. -/

/-- `s` at ramp level `i`, with the period `p` programmed. -/
def descended (s : State) (i p : U16) : State :=
  { s with profile := { s.profile with rampIndex := i }, timers := { s.timers with period := p } }

theorem Inv.ticked {s : State} (h : Inv s) : Inv (ticked s) := by
  obtain ⟨t, ht, hinv⟩ := h.tick
  exact next_inj (ht.symm.trans h.motion.tick_eq) ▸ hinv

/-- An arrived move above level 0 is ramped and goes a level down (R158(b)). -/
theorem MotionInv.ticked_of_arrived {s : State} (h : MotionInv s) (hact : s.motion.active = true)
    (harr : s.motion.position = s.motion.target) (hidx : 0 < s.profile.rampIndex.toNat) :
    Machine.ticked s = atLevel s (s.profile.rampIndex - 1) := by
  have hrange := h.index_range
  have hphase : movePhase s = .brake := movePhase_of_phaseCondition
    ⟨hact, (not_direct_iff s).mpr (by omega), ((remaining_eq_zero_iff s).mpr harr).le.trans (Nat.zero_le _), hidx⟩
  rw [Machine.ticked, hphase]

/-- An arrived move at level 0, direct or ramped, completes (R158, R159). -/
theorem ticked_of_arrived_at_zero {s : State} (hact : s.motion.active = true)
    (harr : s.motion.position = s.motion.target) (hidx : s.profile.rampIndex.toNat = 0) : ticked s = completed s := by
  have hrem := (remaining_eq_zero_iff s).mpr harr
  cases hdir : direct s
  · rw [ticked, movePhase_of_phaseCondition (p := .stopping) ⟨hact, hdir, hrem, hidx⟩]
  · rw [ticked, movePhase_of_phaseCondition (p := .direct) ⟨hact, hdir⟩]
    exact if_pos hrem

/-- `k` TICK events take an arrived move `k` levels down, by induction on `k`; the rest of the schedule still stands. -/
theorem run_ticks_of_arrived {s : State} {k : Nat} (h : Inv s) (hact : s.motion.active = true)
    (harr : s.motion.position = s.motion.target) (hk : k ≤ s.profile.rampIndex.toNat) (us : List Turn) :
    ∃ i p, Host.Core.run core k (scheduled s (List.replicate k .tick ++ us)) = .next (scheduled (descended s i p) us) ∧
      i.toNat + k = s.profile.rampIndex.toNat ∧ Inv (descended s i p) := by
  induction k generalizing s with
  | zero => exact ⟨s.profile.rampIndex, s.timers.period, rfl, rfl, h⟩
  | succ k ih =>
    have hdown := h.motion.ticked_of_arrived hact harr (by omega)
    have hlevel : (atLevel s (s.profile.rampIndex - 1)).profile.rampIndex.toNat + 1 = s.profile.rampIndex.toNat := by
      rw [atLevel]
      bv_omega
    have hbelow : Inv (atLevel s (s.profile.rampIndex - 1)) := hdown ▸ h.ticked
    obtain ⟨i, p, hrun, hi, hinv⟩ := ih hbelow hact harr (by omega)
    refine ⟨i, p, ?_, by omega, hinv⟩
    rw [List.replicate_succ, List.cons_append, run_succ_of_step (h.step_scheduled_tick _), hdown, hrun]
    rfl

/-- A run goes on where a shorter one ends. -/
theorem run_add_of_run {s t : State} {m : Nat} (h : Host.Core.run core m s = .next t) (n : Nat) :
    Host.Core.run core (m + n) s = Host.Core.run core n t := by
  induction m generalizing s with
  | zero => rw [Nat.zero_add, next_inj h]
  | succ m ih =>
    cases hs : step s with
    | next u =>
      rw [run_succ_of_step hs] at h
      rw [Nat.add_right_comm, run_succ_of_step hs, ih h]
    | fault r => simp [Host.Core.run, show core.step s = .fault r from hs] at h
    | refused r => simp [Host.Core.run, show core.step s = .refused r from hs] at h

/-- Settles O49: down to level 0, and the TICK event that completes the move there. -/
theorem ticksCompleteArrivedMove : Obligations.TicksCompleteArrivedMove := by
  intro s h hact harr
  refine ⟨fun k hk => ?_, ?_⟩
  · obtain ⟨i, p, hrun, hi, _⟩ := run_ticks_of_arrived h hact harr hk []
    rw [List.append_nil] at hrun
    exact ⟨_, hrun, rfl, hi⟩
  · obtain ⟨i, p, hrun, hi, hinv⟩ := run_ticks_of_arrived h hact harr le_rfl [.tick]
    have hzero : i.toNat = 0 := by omega
    have hlast : ticked (descended s i p) = completed (descended s i p) := ticked_of_arrived_at_zero hact harr hzero
    refine ⟨scheduled (completed (descended s i p)) [], ?_, rfl, rfl, rfl, rfl, rfl, rfl⟩
    rw [List.replicate_succ', run_add_of_run hrun, run_succ_of_step (hinv.step_scheduled_tick []), hlast]
    rfl

end Sys2Proof.Machine
end

section
/-! The motion commands (R170 to R174): which words of the port they are, what each does in every state, and which of them write
`target` and `direction` (R176). -/

namespace Sys2Proof.Machine

open Sys2Proof.Statements

/-! The words of one opcode (R84, R86). -/

/-- Where the words of `P` are the encodings of a command and no other word of the opcode is legal, those of `P` run it and the rest
are answered `ILLEGAL`. -/
theorem acceptCommand_eq_ite_of_encode {op a : Byte} {r : U16} {d : Word} {s : State} {i : Instr} (P : Prop) [Decidable P]
    (hlegal : LegalWord s.cfg op a r d → P) (henc : P → encode i = .command (commandWord op a r d))
    (hwf : i.wf s.cfg = true) :
    acceptCommand (portWord op a r d) s = if P then exec i s else .next (illegal s op) := by
  split_ifs with h
  · exact acceptCommand_of_decodes (portWord_eq_commandWord op a r d ▸ decodeCommand_of_encode (henc h) hwf)
  · exact acceptCommand_of_not_legalWord (mt hlegal h)

/-- A command without operands is the one word of its opcode whose other fields are zero. -/
theorem onlyPlainWord_of_encode {op : Byte} {i : Instr}
    (hlegal : ∀ c a r d, LegalWord c op a r d → a.toNat = 0 ∧ r.toNat = 0 ∧ d.toNat = 0)
    (henc : encode i = .command (commandWord op 0 0 0)) (hwf : ∀ c, i.wf c = true) : OnlyPlainWord op i := by
  intro a r d s
  refine acceptCommand_eq_ite_of_encode _ (hlegal s.cfg a r d) (fun ⟨ha, hr, hd⟩ => ?_) (hwf s.cfg)
  rw [henc, (eq_zero_iff_toNat a).mpr ha, (eq_zero_iff_toNat r).mpr hr, (eq_zero_iff_toNat d).mpr hd]
  rfl

theorem onlyPlainWord_ready : OnlyPlainWord 0x03#8 .ready :=
  onlyPlainWord_of_encode (by simp [LegalWord]) rfl fun _ => rfl

theorem onlyPlainWord_stop : OnlyPlainWord 0x02#8 .stop :=
  onlyPlainWord_of_encode (by simp [LegalWord]) rfl fun _ => rfl

theorem acceptCommand_goto (a : Byte) (rpm : U16) (t : Word) (s : State) :
    acceptCommand (portWord 0x01#8 a rpm t) s =
      if a.toNat = 0 then exec (.goto t rpm) s else .next (illegal s 0x01#8) := by
  refine acceptCommand_eq_ite_of_encode _ (by simp [LegalWord]) (fun ha => ?_) rfl
  rw [(eq_zero_iff_toNat a).mpr ha]
  rfl

theorem acceptCommand_setpos (a : Byte) (r : U16) (p : Word) (s : State) :
    acceptCommand (portWord 0x04#8 a r p) s =
      if a.toNat = 0 ∧ r.toNat = 0 then exec (.setpos p) s else .next (illegal s 0x04#8) := by
  refine acceptCommand_eq_ite_of_encode _ (by simp [LegalWord]) (fun ⟨ha, hr⟩ => ?_) rfl
  rw [(eq_zero_iff_toNat a).mpr ha, (eq_zero_iff_toNat r).mpr hr]
  rfl

theorem boolWord_decide_of_le_one {d : Word} (h : d.toNat ≤ 1) : boolWord (decide (d.toNat = 1)) = d := by
  obtain ⟨b, rfl⟩ := exists_boolWord_iff.mpr h
  cases b <;> rfl

theorem acceptCommand_setinv (a : Byte) (r : U16) (d : Word) (s : State) :
    acceptCommand (portWord 0x05#8 a r d) s =
      if a.toNat = 0 ∧ r.toNat = 0 ∧ d.toNat ≤ 1 then exec (.setinv (decide (d.toNat = 1))) s
      else .next (illegal s 0x05#8) := by
  refine acceptCommand_eq_ite_of_encode _ (by simp [LegalWord]) (fun ⟨ha, hr, hd⟩ => ?_) rfl
  rw [encode, boolWord_decide_of_le_one hd, (eq_zero_iff_toNat a).mpr ha, (eq_zero_iff_toNat r).mpr hr]
  rfl

/-! What each command does. -/

theorem answer_eq_answered (op : Byte) (st : Status) (aux : U16) (v : Word) (s : State) :
    s.answer op st aux v = answered s op (statusCode st) aux v := by
  rw [State.answer, responseWord_eq_portWord]
  rfl

theorem ready_iff (s : State) : ready s = true ↔ s.motion.position = s.motion.target := beq_iff_eq

theorem exec_ready (s : State) :
    exec .ready s =
      .next (answered s 0x03#8 0x00#8 0#16 (if s.motion.position = s.motion.target then 1#32 else 0#32)) := by
  show Host.Outcome.next (s.answer opReady .ok 0 (if ready s = true then 1#32 else 0#32)) = _
  simp only [answer_eq_answered, ready_iff]
  rfl

theorem exec_setpos (p : Word) (s : State) :
    exec (.setpos p) s =
      .next (if s.motion.active = true then answered s 0x04#8 0x01#8 0#16 0#32
        else answered { s with motion := { s.motion with position := p, target := p } } 0x04#8 0x00#8 0#16 0#32) := by
  show execSetpos p s = _
  unfold execSetpos
  split <;> rw [answer_eq_answered] <;> rfl

theorem exec_setinv (b : Bool) (s : State) :
    exec (.setinv b) s =
      .next (if s.motion.active = true then answered s 0x05#8 0x01#8 0#16 0#32
        else answered { s with motion := { s.motion with invert := b } } 0x05#8 0x00#8 0#16 0#32) := by
  show execSetinv b s = _
  unfold execSetinv
  split <;> rw [answer_eq_answered] <;> rfl

/-- `STOP` has nothing to do at rest or at the target (R171). -/
theorem exec_stop_of_noop {s : State} (h : s.motion.active = false ∨ s.motion.position = s.motion.target) :
    exec .stop s = .next (answered s 0x02#8 0x01#8 0#16 0#32) := by
  rw [← ready_iff] at h
  exact (if_pos h).trans (congrArg _ (answer_eq_answered ..))

/-- An effective `STOP` writes `target` only (R171). -/
theorem exec_stop_of_effective {s : State} (h : ¬ (s.motion.active = false ∨ s.motion.position = s.motion.target)) :
    exec .stop s =
      .next (answered { s with motion := { s.motion with target := stopTarget s } } 0x02#8 0x00#8 0#16 0#32) := by
  rw [← ready_iff] at h
  exact (if_neg h).trans (congrArg _ (answer_eq_answered ..))

/-- `GOTO` has nothing to do during a move or at the target (R170). -/
theorem exec_goto_of_noop {t : Word} {rpm : U16} {s : State} (h : s.motion.active = true ∨ t = s.motion.position) :
    exec (.goto t rpm) s = .next (answered s 0x01#8 0x01#8 0#16 0#32) :=
  (if_pos h).trans (congrArg _ (answer_eq_answered ..))

/-- An accepted `GOTO` starts the move at the clamped speed (R170). -/
theorem exec_goto_of_accepted {t : Word} {rpm : U16} {s : State} (h : ¬ (s.motion.active = true ∨ t = s.motion.position)) :
    exec (.goto t rpm) s = .next (answered (startMove t (clampRpm s.cfg rpm) s) 0x01#8 0x00#8 0#16 0#32) :=
  (if_neg h).trans (congrArg _ (answer_eq_answered ..))

/-- Settles O7. -/
theorem readyComparesPositionTarget : Obligations.ReadyComparesPositionTarget := by
  refine ⟨fun s => ?_, onlyPlainWord_ready⟩
  simp only [BitVec.toInt_inj]
  exact exec_ready s

/-- Settles O10. -/
theorem setposMovesReference : Obligations.SetposMovesReference := ⟨exec_setpos, acceptCommand_setpos⟩

/-- Settles O11; the pin is R27's formula with the new bit. -/
theorem setinvSetsInvert : Obligations.SetinvSetsInvert := by
  refine ⟨exec_setinv, fun b s => ?_, acceptCommand_setinv⟩
  rw [dirPin, beq_eq_decide]

/-- Settles O12: in the window each command takes its no-op branch, `STOP` by the target and the others by the move. -/
theorem readyActiveWindowAnswersNoop : Obligations.ReadyActiveWindowAnswersNoop := by
  intro t p rpm b s hact harr
  refine ⟨?_, exec_goto_of_noop (.inl hact), ?_, ?_, exec_stop_of_noop (.inr harr)⟩
  · rw [exec_ready, if_pos harr]
  · rw [exec_setpos, if_pos hact]
  · rw [exec_setinv, if_pos hact]

/-! `STOP` (R171). -/

theorem directionSign_eq_ite (d : Direction) : directionSign d = if d = .forward then 1 else -1 := by
  cases d <;> rfl

/-- The target an effective `STOP` leaves, as an integer. -/
theorem stopTarget_toInt (s : State) :
    (stopTarget s).toInt =
      max (-2147483648) (min 2147483647
        (s.motion.position.toInt +
          (if s.motion.direction = .forward then 1 else -1) *
            (if s.profile.rampSteps.toNat = 1 then 1 else s.motion.speedRpm.toNat * 25 : Nat))) := by
  simp only [stopTarget, direct_iff, ← directionSign_eq_ite]
  split <;> rw [sat32_toInt]
  · rw [Nat.cast_one, mul_one]
  · rfl

/-- Settles O9. -/
theorem stopWritesTargetOnly : Obligations.StopWritesTargetOnly := by
  refine ⟨fun s => ?_, onlyPlainWord_stop⟩
  split
  next h => exact exec_stop_of_noop h
  next h => exact ⟨stopTarget s, stopTarget_toInt s, exec_stop_of_effective h⟩

/-- Settles O13: the target that `STOP` writes does not depend on the one that stood before. -/
theorem secondStopSameTarget : Obligations.SecondStopSameTarget := by
  intro s t u hst htu
  by_cases ht : t.motion.active = false ∨ t.motion.position = t.motion.target
  · obtain rfl := next_inj ((exec_stop_of_noop ht).symm.trans htu)
    rfl
  · obtain rfl := next_inj ((exec_stop_of_effective ht).symm.trans htu)
    by_cases hs : s.motion.active = false ∨ s.motion.position = s.motion.target
    · obtain rfl := next_inj ((exec_stop_of_noop hs).symm.trans hst)
      exact absurd hs ht
    · obtain rfl := next_inj ((exec_stop_of_effective hs).symm.trans hst)
      rfl

/-! `GOTO` (R170). -/

/-- What `plan` leaves is what R156 asks for. -/
theorem plannedAs_plan {s : State} (hw : s.cfg.wf = true) (ht : s.profile.rampTable.wf = true) (d r : Nat) :
    PlannedAs s.cfg r s.profile (plan d r s).profile (plan d r s).timers.period := by
  have hsteps := plan_rampSteps_toNat hw d r
  unfold PlannedAs
  rcases plan_cases d r s with ⟨hr, e⟩ | ⟨hr, e⟩
  · rw [if_pos hr, e]
    exact ⟨rfl, periodWord_toNat _ _⟩
  · rw [if_neg (by omega)] at hsteps ⊢
    have hread {i : Nat} (hi : i < rampStepsOf s.cfg r) := plan_read (d := d) ht hr hi
    have hfirst : (plan d r s).timers.period = (plan d r s).profile.rampTable.read 0 := by rw [e]
    have htwo := (rampStepsOf_range hw r).1
    rw [hsteps]
    refine ⟨rfl, ?_, fun i hi => ?_, fun i hi => ?_, hfirst, ?_⟩
    · rw [plan_rampIndex]
      rfl
    · rw [hread hi, periodWord_toNat]
    · rw [e]
      exact (read_fillRamp _ _ _ _ _ ht).trans (if_neg (by omega))
    · rw [hfirst, hread (by omega), periodWord_toNat, rampRpm_zero hw]

/-- The whole state an accepted `GOTO` leaves: the motion fields, what `plan` writes, and the restarted pulse timer (R170, R213). -/
theorem startMove_eq (t : Word) (r : Nat) (s : State) :
    startMove t r s =
      { s with
        motion :=
          { s.motion with
            direction := directionTo s.motion.position t, target := t, speedRpm := BitVec.ofNat 16 r, active := true }
        profile := (plan (t.toInt - s.motion.position.toInt).natAbs r s).profile
        timers :=
          { s.timers with
            period := (plan (t.toInt - s.motion.position.toInt).natAbs r s).timers.period
            periodAct := (plan (t.toInt - s.motion.position.toInt).natAbs r s).timers.period
            tcnt := 0 } } := by
  unfold startMove restartPulseTimer
  rcases plan_cases (t.toInt - s.motion.position.toInt).natAbs r s with ⟨_, e⟩ | ⟨_, e⟩ <;> rw [e]

/-- Settles O8. -/
theorem gotoStartsPlannedMoveOrNoop : Obligations.GotoStartsPlannedMoveOrNoop := by
  refine ⟨fun t rpm s hw ht => ?_, acceptCommand_goto⟩
  split
  next h => exact exec_goto_of_noop h
  next h =>
    refine ⟨_, _, plannedAs_plan hw ht (t.toInt - s.motion.position.toInt).natAbs _, ?_⟩
    rw [exec_goto_of_accepted h, startMove_eq]
    rfl

/-! The writers of `target` and `direction` (R176). -/

/-- Only `GOTO`, `STOP` and `SETPOS` write `target`. -/
theorem CommandEffect.target_writer {s t : State} {i : Instr} (h : CommandEffect s i t)
    (hne : t.motion.target ≠ s.motion.target) : (∃ a r, i = .goto a r) ∨ i = .stop ∨ ∃ p, i = .setpos p := by
  cases h with
  | answers => exact absurd rfl hne
  | goes a rpm => exact .inl ⟨a, rpm, rfl⟩
  | stops => exact .inr (.inl rfl)
  | setsPosition p => exact .inr (.inr ⟨p, rfl⟩)
  | setsInvert => exact absurd rfl hne
  | startsRead => exact absurd rfl hne
  | startsWrite => exact absurd rfl hne

/-- Only `GOTO` writes `direction`. -/
theorem CommandEffect.direction_writer {s t : State} {i : Instr} (h : CommandEffect s i t)
    (hne : t.motion.direction ≠ s.motion.direction) : ∃ a r, i = .goto a r := by
  cases h with
  | answers => exact absurd rfl hne
  | goes a rpm => exact ⟨a, rpm, rfl⟩
  | stops => exact absurd rfl hne
  | setsPosition => exact absurd rfl hne
  | setsInvert => exact absurd rfl hne
  | startsRead => exact absurd rfl hne
  | startsWrite => exact absurd rfl hne

/-- A step other than reset leaves `target` and `direction` alone, or it is a host's move whose command has its effect on them. -/
theorem step_writes_by_command {s t : State} (h : step s = .next t) (hnoreset : ∀ us, s.turns ≠ .reset :: us) :
    (t.motion.target = s.motion.target ∧ t.motion.direction = s.motion.direction) ∨
    ∃ i u, Accepts s i ∧ CommandEffect u i t ∧ u.motion = s.motion := by
  obtain ⟨_, ⟨_, rfl⟩ | ⟨u, us, hu, h⟩⟩ := step_next_cases h
  · exact .inl ⟨rfl, rfl⟩
  cases u with
  | host =>
    cases hostEffect_of_next h with
    | takes | waits | refuses => exact .inl ⟨rfl, rfl⟩
    | runs w ws i t hr hp hq hi he => exact .inr ⟨i, _, ⟨w, ws, us, hu, hr, hp, hq, hi⟩, he, rfl⟩
  | pulse =>
    obtain rfl := next_inj h
    rcases pulse_cases { s with turns := us } with ⟨_, e⟩ | ⟨_, e⟩ <;> rw [e] <;> exact .inl ⟨rfl, rfl⟩
  | tick =>
    obtain ⟨_, hm | ⟨_, hm⟩⟩ := tick_motion_cases h <;> rw [hm] <;> exact .inl ⟨rfl, rfl⟩
  | link =>
    rw [(linkStep_linkOnly h).motion]
    exact .inl ⟨rfl, rfl⟩
  | linkTimed =>
    rw [(linkTimed_linkOnly h).motion]
    exact .inl ⟨rfl, rfl⟩
  | micro =>
    obtain rfl := next_inj h
    exact .inl ⟨rfl, rfl⟩
  | rxByte b =>
    obtain rfl := next_inj h
    rw [(arrive_linkOnly b _).motion]
    exact .inl ⟨rfl, rfl⟩
  | reset => exact absurd hu (hnoreset us)

/-- Settles O57, by the command that the step accepts. -/
theorem targetAndDirectionWriters : Obligations.TargetAndDirectionWriters := by
  intro s t hst hnoreset
  rcases step_writes_by_command hst hnoreset with ⟨htarget, hdir⟩ | ⟨i, u, hacc, he, hm⟩
  · exact ⟨absurd htarget, absurd hdir⟩
  · rw [← hm]
    refine ⟨fun hne => ?_, fun hne => ?_⟩
    · rcases he.target_writer hne with ⟨a, r, rfl⟩ | rfl | ⟨p, rfl⟩
      · exact .inl ⟨a, r, hacc⟩
      · exact .inr (.inl hacc)
      · exact .inr (.inr ⟨p, hacc⟩)
    · obtain ⟨a, r, rfl⟩ := he.direction_writer hne
      exact ⟨a, r, hacc⟩

end Sys2Proof.Machine
end

section
/-! The status commands (R190 to R195): which words of the port they are, and the response each offers in every state. -/

namespace Sys2Proof.Machine

open Sys2Proof.Statements

/-! The words of each opcode (R84). -/

theorem onlyPlainWord_nop : OnlyPlainWord 0x00#8 .nop :=
  onlyPlainWord_of_encode (by simp [LegalWord]) rfl fun _ => rfl

theorem onlyPlainWord_getpos : OnlyPlainWord 0x08#8 .getpos :=
  onlyPlainWord_of_encode (by simp [LegalWord]) rfl fun _ => rfl

theorem onlyPlainWord_gettgt : OnlyPlainWord 0x09#8 .gettgt :=
  onlyPlainWord_of_encode (by simp [LegalWord]) rfl fun _ => rfl

theorem onlyPlainWord_getstat : OnlyPlainWord 0x0A#8 .getstat :=
  onlyPlainWord_of_encode (by simp [LegalWord]) rfl fun _ => rfl

theorem onlyPlainWord_getprof : OnlyPlainWord 0x0B#8 .getprof :=
  onlyPlainWord_of_encode (by simp [LegalWord]) rfl fun _ => rfl

/-- `GETRAMP` is a command for the indexes that exist only (R84, R195). -/
theorem acceptCommand_getramp (a : Byte) (r : U16) (x : Word) (s : State) :
    acceptCommand (portWord 0x0C#8 a r x) s =
      if a.toNat = 0 ∧ r.toNat = 0 ∧ x.toNat < s.cfg.capacity then exec (.getramp x) s
      else .next (illegal s 0x0C#8) := by
  split_ifs with h
  · obtain ⟨ha, hr, hx⟩ := h
    obtain rfl := (eq_zero_iff_toNat a).mpr ha
    obtain rfl := (eq_zero_iff_toNat r).mpr hr
    refine acceptCommand_of_decodes ?_
    rw [portWord_eq_commandWord]
    exact decodeCommand_of_encode rfl (decide_eq_true hx)
  · exact acceptCommand_of_not_legalWord (mt (by simp [LegalWord]) h)

/-! `NOP`, `GETPOS` and `GETTGT` (R190 to R192). -/

/-- A command that ends with a response is `answered` with that status's number. -/
theorem next_answer_eq (op : Byte) (st : Status) (aux : U16) (v : Word) (s : State) :
    (.next (s.answer op st aux v) : Outcome) = .next (answered s op (statusCode st) aux v) :=
  congrArg _ (answer_eq_answered ..)

/-- Settles O1; opcode, status, `aux` and `value` are all zero. -/
theorem nopAnswersAllZeroWord : Obligations.NopAnswersAllZeroWord := ⟨fun _ => rfl, onlyPlainWord_nop⟩

/-- Settles O2. -/
theorem getposAnswersPosition : Obligations.GetposAnswersPosition :=
  ⟨fun s => next_answer_eq opGetpos .ok 0 s.motion.position s, onlyPlainWord_getpos⟩

/-- Settles O3. -/
theorem gettgtAnswersTarget : Obligations.GettgtAnswersTarget :=
  ⟨fun s => next_answer_eq opGettgt .ok 0 s.motion.target s, onlyPlainWord_gettgt⟩

/-! `GETSTAT` (R193). -/

/-- The flag word bit by bit, bit 0 first; past the six flags every bit is 0. -/
theorem statFlags_getLsbD (s : State) (k : Nat) :
    (statFlags s).getLsbD k =
      [s.motion.active, ready s, directionBit s.motion.direction, s.motion.invert, dirPin s, direct s].getD k false := by
  simp only [statFlags, BitVec.append_ofBool, BitVec.getLsbD_concat]
  rcases k with _ | _ | _ | _ | _ | _ | k <;> simp

theorem directionBit_eq_decide (d : Direction) : directionBit d = decide (d = .reverse) := by cases d <;> rfl

/-- `dir_pin` from the direction as `GETSTAT` shows it (R27, R193). -/
theorem dirPin_eq_xor (s : State) : dirPin s = (!directionBit s.motion.direction ^^ s.motion.invert) := by
  rw [dirPin]
  cases s.motion.direction <;> rfl

/-- Settles O4, from the flag word bit by bit. -/
theorem getstatReportsFlags : Obligations.GetstatReportsFlags := by
  refine ⟨fun s => ⟨statFlags s, next_answer_eq opGetstat .ok _ _ s, ?_⟩, onlyPlainWord_getstat⟩
  have hready : ready s = decide (s.motion.position = s.motion.target) := beq_eq_decide ..
  have hdirect : direct s = decide (s.profile.rampSteps.toNat = 1) := by
    rw [Bool.eq_iff_iff, direct_iff, decide_eq_true_iff]
  have hpin : dirPin s = (decide (s.motion.direction = .forward) ^^ s.motion.invert) := by rw [dirPin, beq_eq_decide]
  simp only [statFlags_getLsbD]
  exact ⟨rfl, hready, directionBit_eq_decide _, rfl, hpin, hdirect, fun k hk => List.getD_eq_default _ _ hk,
    dirPin_eq_xor s, fun hrest hact => (ready_iff s).mpr (hrest hact)⟩

/-! `GETPROF` (R194). -/

/-- Settles O5: a field appended below another is the other shifted up and joined with it. -/
theorem getprofReportsProfile : Obligations.GetprofReportsProfile := by
  refine ⟨fun s => ?_, onlyPlainWord_getprof⟩
  have hvalue : s.profile.rampSteps ++ s.profile.rampIndex =
      s.profile.rampSteps.setWidth 32 <<< 16 ||| s.profile.rampIndex.setWidth 32 := by
    rw [BitVec.append_def, BitVec.shiftLeftZeroExtend_eq, BitVec.setWidth'_eq]
  rw [← hvalue]
  exact next_answer_eq opGetprof .ok _ _ s

/-! `GETRAMP` (R195). -/

theorem exec_getramp_of_lt {index : Word} {s : State} (h : index.toNat < s.cfg.capacity) :
    exec (.getramp index) s =
      .next (answered s 0x0C#8 0x00#8 0#16 ((s.profile.rampTable.read index.toNat).setWidth 32)) := by
  show execGetramp index s = _
  rw [execGetramp, rampRead_eq_some.mpr ⟨h, rfl⟩]
  exact next_answer_eq opGetramp .ok 0 _ s

/-- An index that does not exist is answered `ILLEGAL` (log 20). -/
theorem exec_getramp_of_not_lt {index : Word} {s : State} (h : ¬ index.toNat < s.cfg.capacity) :
    exec (.getramp index) s = .next (illegal s 0x0C#8) := by
  have hnone : rampRead s index.toNat = none := if_neg h
  show execGetramp index s = _
  rw [execGetramp, hnone]
  exact next_answer_eq opGetramp .illegal 0 0 s

/-- Settles O6, on both sides of `CAPACITY`. -/
theorem getrampReadsEntry : Obligations.GetrampReadsEntry := by
  refine ⟨fun index s => ?_, acceptCommand_getramp⟩
  split_ifs with h
  · rw [exec_getramp_of_lt h, BitVec.ofNat_toNat]
  · exact exec_getramp_of_not_lt h

end Sys2Proof.Machine
end

section
/-! The alarm of the pulse timer: the microsecond it falls in, and the period it takes over (R211, R212). -/

namespace Sys2Proof.Machine

open Sys2Proof.Statements

/-- The programmed period is not the timer's to change (R212). -/
theorem period_iterate (c : Config) (t : Timers) (k : Nat) : ((countMicro c)^[k] t).period = t.period := by
  induction k with
  | zero => rfl
  | succ k ih =>
    rw [Function.iterate_succ_apply']
    exact ih

/-- While the count stands below `period_act`, the alarm falls exactly in the microsecond that completes it (R211). -/
theorem alarmDue_iterate (c : Config) (t : Timers) {k : Nat} (h : t.tcnt.toNat + k < t.periodAct.toNat) :
    alarmDue ((countMicro c)^[k] t) = decide (t.tcnt.toNat + k + 1 = t.periodAct.toNat) := by
  obtain ⟨hcnt, hact⟩ := tcnt_iterate c t h
  rw [Bool.eq_iff_iff, alarmDue_iff, hcnt, hact, decide_eq_true_iff]
  omega

/-- Settles O52: the count stays below `period_act` until the microsecond that completes it, whose alarm takes the programmed
period over. -/
theorem alarmsComeWhenPeriodCompletes : Obligations.AlarmsComeWhenPeriodCompletes := by
  intro c t hlt
  refine ⟨fun k hk => ⟨alarmDue_iterate c t hk, (tcnt_iterate c t hk).2⟩, ?_⟩
  obtain ⟨m, hm⟩ : ∃ m, t.periodAct.toNat - t.tcnt.toNat = m + 1 := Nat.exists_eq_succ_of_ne_zero (by omega)
  have hlast : alarmDue ((countMicro c)^[m] t) = true := by
    rw [alarmDue_iterate c t (by omega), decide_eq_true_iff]
    omega
  obtain ⟨hcnt, hact⟩ := countMicro_of_alarmDue c hlast
  rw [hm, Function.iterate_succ_apply', hcnt, hact]
  exact ⟨rfl, period_iterate c t m⟩

end Sys2Proof.Machine
end

section
/-! The reset event as a scheduled move, and the state it leaves (R230). -/

namespace Sys2Proof.Machine

open Sys2Proof.Statements

/-- A scheduled reset happens whatever runs: nothing of the state but the configuration's form is looked at (R230). -/
theorem step_scheduled_reset {s : State} (hw : s.cfg.wf = true) (us : List Turn) :
    step (scheduled s (.reset :: us)) = .next (resetBlock (scheduled s us)) :=
  step_scheduled hw .reset us

/-- What of a state outlives a reset: the parameters, the agents around the block, and the rest of the schedule (log 17). -/
theorem resetBlock_scheduled (s : State) (us : List Turn) :
    resetBlock (scheduled s us) =
      { State.reset with cfg := s.cfg, cmdQueue := s.cmdQueue, wire := s.wire, wireCalls := s.wireCalls, turns := us } :=
  rfl

/-- Settles O36: the step is the reset event, which builds the next state from the reset state. -/
theorem resetAbandonsEverything : Obligations.ResetAbandonsEverything := by
  intro s us hw
  rw [step_scheduled_reset hw, resetBlock_scheduled]

end Sys2Proof.Machine
end
